-- ==== Sys2Proof/Word.lean ====
section
/-! DEFINITION. The word types of the CORE: bytes, 16-bit words, register numbers, 12-bit addresses. -/

namespace Sys2Proof

/-- A byte: the unit of memory (R60) and the width of V0 to VF, DT and ST (R30, R37, R38). -/
abbrev Byte := BitVec 8

/-- A 16-bit word: an instruction (R84), PC (R34), I (R33), a stack entry (R36). -/
abbrev Word := BitVec 16

/-- The 4-bit register field of an instruction; every value 0..15 selects a register (R84). -/
abbrev RegId := BitVec 4

/-- The 12-bit address field of an instruction (R84), and an address of the 4096-byte space (R60). -/
abbrev Addr := BitVec 12

/-- A real-time duration in units of 1/60 ns, so that 1/60 s is a whole number of units
(R45; the unit is a DESIGN CHOICE, log 8). -/
abbrev Duration := Nat

end Sys2Proof
end

