-- ==== Sys2Proof/Syntax.lean ====
section
/-! DEFINITION. The instructions: one constructor per row of spec/opcode_table.json (R83, R85). The
operand types are the fields of the encoding (R84), so every term is an instruction that exists. -/

namespace Sys2Proof

/-- The 34 instructions of R85, in the order of the opcode table. -/
inductive Instr where
  /-- 00E0 (R212) -/
  | cls
  /-- 00EE (R148) -/
  | ret
  /-- 1NNN (R145) -/
  | jpNnn (nnn : Addr)
  /-- 2NNN (R147) -/
  | callNnn (nnn : Addr)
  /-- 3XNN (R141) -/
  | seVxNn (x : RegId) (nn : Byte)
  /-- 4XNN (R142) -/
  | sneVxNn (x : RegId) (nn : Byte)
  /-- 5XY0 (R143) -/
  | seVxVy (x y : RegId)
  /-- 6XNN (R101) -/
  | ldVxNn (x : RegId) (nn : Byte)
  /-- 7XNN (R102) -/
  | addVxNn (x : RegId) (nn : Byte)
  /-- 8XY0 (R103) -/
  | ldVxVy (x y : RegId)
  /-- 8XY1 (R104) -/
  | orVxVy (x y : RegId)
  /-- 8XY2 (R105) -/
  | andVxVy (x y : RegId)
  /-- 8XY3 (R106) -/
  | xorVxVy (x y : RegId)
  /-- 8XY4 (R107) -/
  | addVxVy (x y : RegId)
  /-- 8XY5 (R108) -/
  | subVxVy (x y : RegId)
  /-- 8XY6 (R110) -/
  | shrVxVy (x y : RegId)
  /-- 8XY7 (R109) -/
  | subnVxVy (x y : RegId)
  /-- 8XYE (R111) -/
  | shlVxVy (x y : RegId)
  /-- 9XY0 (R144) -/
  | sneVxVy (x y : RegId)
  /-- ANNN (R181) -/
  | ldINnn (nnn : Addr)
  /-- BNNN (R146) -/
  | jpV0Nnn (nnn : Addr)
  /-- CXNN (R112) -/
  | rndVxNn (x : RegId) (nn : Byte)
  /-- DXYN (R211) -/
  | drwVxVyN (x y : RegId) (n : BitVec 4)
  /-- EX9E (R241) -/
  | skpVx (x : RegId)
  /-- EXA1 (R242) -/
  | sknpVx (x : RegId)
  /-- FX07 (R243) -/
  | ldVxDt (x : RegId)
  /-- FX0A (R246) -/
  | ldVxK (x : RegId)
  /-- FX15 (R244) -/
  | ldDtVx (x : RegId)
  /-- FX18 (R245) -/
  | ldStVx (x : RegId)
  /-- FX1E (R182) -/
  | addIVx (x : RegId)
  /-- FX29 (R183) -/
  | ldFVx (x : RegId)
  /-- FX33 (R184) -/
  | ldBVx (x : RegId)
  /-- FX55 (R185) -/
  | ldMemVx (x : RegId)
  /-- FX65 (R186) -/
  | ldVxMem (x : RegId)
deriving DecidableEq, Repr

end Sys2Proof
end

