-- ==== Sys2Proof/Decode.lean ====
section
/-! DEFINITION. The opcode map as data (R85), the decoder (R81, R83, R87), and the encoder written from
the same field layouts (R84, R86). -/

namespace Sys2Proof

/-- The 16-bit word of two bytes in memory order: the first is bits 15 to 8 (R64). -/
def wordOf (hi lo : Byte) : Word := hi ++ lo

/-- Bits 15 to 8 of a word, the byte at the lower address (R64). -/
def highByte (w : Word) : Byte := w.extractLsb' 8 8

/-- Bits 7 to 0 of a word, the byte at the higher address (R64). -/
def lowByte (w : Word) : Byte := w.extractLsb' 0 8

/-- `x = w[11:8]` (R86). -/
def fieldX (w : Word) : RegId := w.extractLsb' 8 4
/-- `y = w[7:4]` (R86). -/
def fieldY (w : Word) : RegId := w.extractLsb' 4 4
/-- `n = w[3:0]` (R86). -/
def fieldN (w : Word) : BitVec 4 := w.extractLsb' 0 4
/-- `nn = w[7:0]` (R86). -/
def fieldNN (w : Word) : Byte := w.extractLsb' 0 8
/-- `nnn = w[11:0]` (R86). -/
def fieldNNN (w : Word) : Addr := w.extractLsb' 0 12

/-- One row of the opcode map: a word w selects it when `w & mask = pattern` (R85). -/
structure Row where
  mnemonic : String
  mask     : Word
  pattern  : Word
  /-- the instruction read from the fields of a word that selects the row -/
  build    : Word → Instr

/-- `w & mask = match` (R85). -/
def Row.selects (r : Row) (w : Word) : Bool := w &&& r.mask == r.pattern

/-- Rows 00E0 to 7XNN of R85. -/
def rowsLow : List Row := [
  ⟨"CLS",       0xFFFF, 0x00E0, fun _ => .cls⟩,
  ⟨"RET",       0xFFFF, 0x00EE, fun _ => .ret⟩,
  ⟨"JP_NNN",    0xF000, 0x1000, fun w => .jpNnn (fieldNNN w)⟩,
  ⟨"CALL_NNN",  0xF000, 0x2000, fun w => .callNnn (fieldNNN w)⟩,
  ⟨"SE_VX_NN",  0xF000, 0x3000, fun w => .seVxNn (fieldX w) (fieldNN w)⟩,
  ⟨"SNE_VX_NN", 0xF000, 0x4000, fun w => .sneVxNn (fieldX w) (fieldNN w)⟩,
  ⟨"SE_VX_VY",  0xF00F, 0x5000, fun w => .seVxVy (fieldX w) (fieldY w)⟩,
  ⟨"LD_VX_NN",  0xF000, 0x6000, fun w => .ldVxNn (fieldX w) (fieldNN w)⟩,
  ⟨"ADD_VX_NN", 0xF000, 0x7000, fun w => .addVxNn (fieldX w) (fieldNN w)⟩]

/-- Rows 8XY0 to 9XY0 of R85. -/
def rowsTwoRegister : List Row := [
  ⟨"LD_VX_VY",   0xF00F, 0x8000, fun w => .ldVxVy (fieldX w) (fieldY w)⟩,
  ⟨"OR_VX_VY",   0xF00F, 0x8001, fun w => .orVxVy (fieldX w) (fieldY w)⟩,
  ⟨"AND_VX_VY",  0xF00F, 0x8002, fun w => .andVxVy (fieldX w) (fieldY w)⟩,
  ⟨"XOR_VX_VY",  0xF00F, 0x8003, fun w => .xorVxVy (fieldX w) (fieldY w)⟩,
  ⟨"ADD_VX_VY",  0xF00F, 0x8004, fun w => .addVxVy (fieldX w) (fieldY w)⟩,
  ⟨"SUB_VX_VY",  0xF00F, 0x8005, fun w => .subVxVy (fieldX w) (fieldY w)⟩,
  ⟨"SHR_VX_VY",  0xF00F, 0x8006, fun w => .shrVxVy (fieldX w) (fieldY w)⟩,
  ⟨"SUBN_VX_VY", 0xF00F, 0x8007, fun w => .subnVxVy (fieldX w) (fieldY w)⟩,
  ⟨"SHL_VX_VY",  0xF00F, 0x800E, fun w => .shlVxVy (fieldX w) (fieldY w)⟩,
  ⟨"SNE_VX_VY",  0xF00F, 0x9000, fun w => .sneVxVy (fieldX w) (fieldY w)⟩]

/-- Rows ANNN to DXYN of R85. -/
def rowsHigh : List Row := [
  ⟨"LD_I_NNN",    0xF000, 0xA000, fun w => .ldINnn (fieldNNN w)⟩,
  ⟨"JP_V0_NNN",   0xF000, 0xB000, fun w => .jpV0Nnn (fieldNNN w)⟩,
  ⟨"RND_VX_NN",   0xF000, 0xC000, fun w => .rndVxNn (fieldX w) (fieldNN w)⟩,
  ⟨"DRW_VX_VY_N", 0xF000, 0xD000, fun w => .drwVxVyN (fieldX w) (fieldY w) (fieldN w)⟩]

/-- Rows EX9E to FX65 of R85. -/
def rowsOneRegister : List Row := [
  ⟨"SKP_VX",    0xF0FF, 0xE09E, fun w => .skpVx (fieldX w)⟩,
  ⟨"SKNP_VX",   0xF0FF, 0xE0A1, fun w => .sknpVx (fieldX w)⟩,
  ⟨"LD_VX_DT",  0xF0FF, 0xF007, fun w => .ldVxDt (fieldX w)⟩,
  ⟨"LD_VX_K",   0xF0FF, 0xF00A, fun w => .ldVxK (fieldX w)⟩,
  ⟨"LD_DT_VX",  0xF0FF, 0xF015, fun w => .ldDtVx (fieldX w)⟩,
  ⟨"LD_ST_VX",  0xF0FF, 0xF018, fun w => .ldStVx (fieldX w)⟩,
  ⟨"ADD_I_VX",  0xF0FF, 0xF01E, fun w => .addIVx (fieldX w)⟩,
  ⟨"LD_F_VX",   0xF0FF, 0xF029, fun w => .ldFVx (fieldX w)⟩,
  ⟨"LD_B_VX",   0xF0FF, 0xF033, fun w => .ldBVx (fieldX w)⟩,
  ⟨"LD_MEM_VX", 0xF0FF, 0xF055, fun w => .ldMemVx (fieldX w)⟩,
  ⟨"LD_VX_MEM", 0xF0FF, 0xF065, fun w => .ldVxMem (fieldX w)⟩]

/-- The whole opcode map of R85, as data, so that it can be replaced (D1). -/
def opcodeMap : List Row := rowsLow ++ rowsTwoRegister ++ rowsHigh ++ rowsOneRegister

/-- What the decoder reads from a word: an instruction, or the word named as unrecognised (R83, R87). -/
inductive Decoded where
  | instr (i : Instr)
  | unknown (w : Word)
deriving DecidableEq, Repr

/-- Decode (R81): the row the word selects, else unrecognised. Total on all 65536 words. -/
def decode (w : Word) : Decoded :=
  match opcodeMap.find? (fun r => r.selects w) with
  | some r => .instr (r.build w)
  | none => .unknown w

/-- Layout NNN of R84. -/
def packNNN (op : BitVec 4) (nnn : Addr) : Word := op ++ nnn
/-- Layout XNN of R84. -/
def packXNN (op : BitVec 4) (x : RegId) (nn : Byte) : Word := op ++ x ++ nn
/-- Layouts XY and XYN of R84 (in XY the last nibble is fixed). -/
def packXYN (op : BitVec 4) (x y : RegId) (n : BitVec 4) : Word := op ++ x ++ y ++ n

/-- The word of an instruction, from the encodings of R85 (the layout X has a fixed low byte). -/
def encode : Instr → Word
  | .cls => 0x00E0
  | .ret => 0x00EE
  | .jpNnn nnn => packNNN 0x1 nnn
  | .callNnn nnn => packNNN 0x2 nnn
  | .seVxNn x nn => packXNN 0x3 x nn
  | .sneVxNn x nn => packXNN 0x4 x nn
  | .seVxVy x y => packXYN 0x5 x y 0x0
  | .ldVxNn x nn => packXNN 0x6 x nn
  | .addVxNn x nn => packXNN 0x7 x nn
  | .ldVxVy x y => packXYN 0x8 x y 0x0
  | .orVxVy x y => packXYN 0x8 x y 0x1
  | .andVxVy x y => packXYN 0x8 x y 0x2
  | .xorVxVy x y => packXYN 0x8 x y 0x3
  | .addVxVy x y => packXYN 0x8 x y 0x4
  | .subVxVy x y => packXYN 0x8 x y 0x5
  | .shrVxVy x y => packXYN 0x8 x y 0x6
  | .subnVxVy x y => packXYN 0x8 x y 0x7
  | .shlVxVy x y => packXYN 0x8 x y 0xE
  | .sneVxVy x y => packXYN 0x9 x y 0x0
  | .ldINnn nnn => packNNN 0xA nnn
  | .jpV0Nnn nnn => packNNN 0xB nnn
  | .rndVxNn x nn => packXNN 0xC x nn
  | .drwVxVyN x y n => packXYN 0xD x y n
  | .skpVx x => packXNN 0xE x 0x9E
  | .sknpVx x => packXNN 0xE x 0xA1
  | .ldVxDt x => packXNN 0xF x 0x07
  | .ldVxK x => packXNN 0xF x 0x0A
  | .ldDtVx x => packXNN 0xF x 0x15
  | .ldStVx x => packXNN 0xF x 0x18
  | .addIVx x => packXNN 0xF x 0x1E
  | .ldFVx x => packXNN 0xF x 0x29
  | .ldBVx x => packXNN 0xF x 0x33
  | .ldMemVx x => packXNN 0xF x 0x55
  | .ldVxMem x => packXNN 0xF x 0x65

/-- The mnemonic of an instruction's row in the opcode table (R85). -/
def Instr.mnemonic : Instr → String
  | .cls => "CLS"
  | .ret => "RET"
  | .jpNnn _ => "JP_NNN"
  | .callNnn _ => "CALL_NNN"
  | .seVxNn _ _ => "SE_VX_NN"
  | .sneVxNn _ _ => "SNE_VX_NN"
  | .seVxVy _ _ => "SE_VX_VY"
  | .ldVxNn _ _ => "LD_VX_NN"
  | .addVxNn _ _ => "ADD_VX_NN"
  | .ldVxVy _ _ => "LD_VX_VY"
  | .orVxVy _ _ => "OR_VX_VY"
  | .andVxVy _ _ => "AND_VX_VY"
  | .xorVxVy _ _ => "XOR_VX_VY"
  | .addVxVy _ _ => "ADD_VX_VY"
  | .subVxVy _ _ => "SUB_VX_VY"
  | .shrVxVy _ _ => "SHR_VX_VY"
  | .subnVxVy _ _ => "SUBN_VX_VY"
  | .shlVxVy _ _ => "SHL_VX_VY"
  | .sneVxVy _ _ => "SNE_VX_VY"
  | .ldINnn _ => "LD_I_NNN"
  | .jpV0Nnn _ => "JP_V0_NNN"
  | .rndVxNn _ _ => "RND_VX_NN"
  | .drwVxVyN _ _ _ => "DRW_VX_VY_N"
  | .skpVx _ => "SKP_VX"
  | .sknpVx _ => "SKNP_VX"
  | .ldVxDt _ => "LD_VX_DT"
  | .ldVxK _ => "LD_VX_K"
  | .ldDtVx _ => "LD_DT_VX"
  | .ldStVx _ => "LD_ST_VX"
  | .addIVx _ => "ADD_I_VX"
  | .ldFVx _ => "LD_F_VX"
  | .ldBVx _ => "LD_B_VX"
  | .ldMemVx _ => "LD_MEM_VX"
  | .ldVxMem _ => "LD_VX_MEM"

/-- The word of an opcode-table row whose bits are `w`, numbered as the table numbers them: `nbits` low
bits of `w`, every bit above them 0. Instructions are one word (R89). -/
def tableWord (nbits w : Nat) : Word := BitVec.ofNat 16 (w % 2 ^ nbits)

/-- What the decoder reads from a table word stored in memory order and read back (R64). -/
def decodeTableWord (nbits w : Nat) : Option Instr :=
  match decode (wordOf (highByte (tableWord nbits w)) (lowByte (tableWord nbits w))) with
  | .instr i => some i
  | .unknown _ => none

end Sys2Proof
end

