-- ==== Sys2Proof/Config.lean ====
section
/-! DEFINITION. What is fixed for one engine: the construction arguments (R11, R12, R336), the fixed
sizes (R9), and the free values, which have no body. -/

namespace Sys2Proof

/-- The quirks record (R12): `true` is the legacy (COSMAC VIP) behaviour, `false` the modern one. -/
structure Quirks where
  /-- 8XY1, 8XY2, 8XY3 clear VF. -/
  vfReset : Bool
  /-- 8XY6, 8XYE shift V[y] into V[x]. -/
  shiftVy : Bool
  /-- FX55, FX65 add x + 1 to I. -/
  memIncI : Bool
  /-- DXYN clips at the right and bottom edges. -/
  drawClip : Bool
deriving DecidableEq, Repr

/-- The construction arguments of an engine other than the random source (R11, R336). -/
structure Params where
  quirks : Quirks
  /-- FONT_BASE, the address of glyph 0. -/
  fontBase : Addr
  /-- FONT_GLYPHS: row r of digit d is `fontGlyphs[d][r]`. -/
  fontGlyphs : Vector (Vector Byte 5) 16
  /-- INSTRUCTIONS_PER_TICK, the budget of one batch. -/
  instructionsPerTick : Nat
deriving DecidableEq, Repr

namespace Config

/-- MEM_SIZE (R9). -/
abbrev memSize : Nat := 0x1000
/-- PROG_START (R9). -/
abbrev progStart : Nat := 0x200
/-- MAX_PROG = 4096 - 0x200 (R9). -/
abbrev maxProg : Nat := memSize - progStart
/-- STACK_DEPTH (R9). -/
abbrev stackDepth : Nat := 16
/-- DISPLAY_W (R9). -/
abbrev displayW : Nat := 64
/-- DISPLAY_H (R9). -/
abbrev displayH : Nat := 32
/-- TICK_PERIOD = 1/60 s (R325) in units of 1/60 ns (log 8). -/
abbrev tickPeriod : Duration := 1000000000

/-- DESIGN CHOICE, safe (log 1): the quirk switches of the engine that `State.reset` stands for. The
spec gives no default (R12), so this is a free value: bits 0 to 3 in the packed view of R42. -/
opaque quirkBits : BitVec 4

/-- DESIGN CHOICE, safe (log 2): one less than INSTRUCTIONS_PER_TICK of the engine that `State.reset`
stands for. The spec leaves the budget OPEN, any integer at least 1 (R11), so this is a free value. -/
opaque budgetLessOne : Nat

/-- The random source (R112, D26), a free value (log 5): the byte that draw number k obtains. -/
opaque randomByte : Nat → Byte

end Config
end Sys2Proof
end

