-- ==== Sys2Proof/Machine/Parameters.lean ====
section
/-! DEFINITION. The values of the construction arguments (R11): the quirk profiles and their packed view
(R12, R42), the default font (R49), and what a byte of memory holds after construction (R41). -/

namespace Sys2Proof

/-- The packed view of R42: bit 0 `vf_reset`, bit 1 `shift_vy`, bit 2 `mem_inc_i`, bit 3 `draw_clip`. -/
def Quirks.ofBits (b : BitVec 4) : Quirks :=
  ⟨b.getLsbD 0, b.getLsbD 1, b.getLsbD 2, b.getLsbD 3⟩

/-- The packed view of R42, read. -/
def Quirks.toBits (q : Quirks) : BitVec 4 :=
  BitVec.ofBool q.drawClip ++ BitVec.ofBool q.memIncI ++ BitVec.ofBool q.shiftVy
    ++ BitVec.ofBool q.vfReset

/-- The profile LEGACY: all four switches true (R12). -/
def Quirks.legacy : Quirks := ⟨true, true, true, true⟩

/-- The profile MODERN: all four switches false (R12). -/
def Quirks.modern : Quirks := ⟨false, false, false, false⟩

/-- The default FONT_GLYPHS, the table of R49, digits 0 to 7. -/
def glyphsLow : Vector (Vector Byte 5) 8 := #v[
  #v[0xF0, 0x90, 0x90, 0x90, 0xF0],
  #v[0x20, 0x60, 0x20, 0x20, 0x70],
  #v[0xF0, 0x10, 0xF0, 0x80, 0xF0],
  #v[0xF0, 0x10, 0xF0, 0x10, 0xF0],
  #v[0x90, 0x90, 0xF0, 0x10, 0x10],
  #v[0xF0, 0x80, 0xF0, 0x10, 0xF0],
  #v[0xF0, 0x80, 0xF0, 0x90, 0xF0],
  #v[0xF0, 0x10, 0x20, 0x40, 0x40]]

/-- The default FONT_GLYPHS, the table of R49, digits 8 to F. -/
def glyphsHigh : Vector (Vector Byte 5) 8 := #v[
  #v[0xF0, 0x90, 0xF0, 0x90, 0xF0],
  #v[0xF0, 0x90, 0xF0, 0x10, 0xF0],
  #v[0xF0, 0x90, 0xF0, 0x90, 0x90],
  #v[0xE0, 0x90, 0xE0, 0x90, 0xE0],
  #v[0xF0, 0x80, 0x80, 0x80, 0xF0],
  #v[0xE0, 0x90, 0x90, 0x90, 0xE0],
  #v[0xF0, 0x80, 0xF0, 0x80, 0xF0],
  #v[0xF0, 0x80, 0xF0, 0x80, 0x80]]

/-- The default FONT_GLYPHS (R49, D4). -/
def defaultFont : Vector (Vector Byte 5) 16 := glyphsLow ++ glyphsHigh

/-- The arguments of an engine with the given quirks and budget and the spec's values of FONT_BASE and
FONT_GLYPHS (R11). -/
def Params.withDefaultFont (q : Quirks) (budget : Nat) : Params :=
  { quirks := q, fontBase := 0x000, fontGlyphs := defaultFont, instructionsPerTick := budget }

/-- The construction arguments that `State.reset` takes: the quirks and the budget are free values
(logs 1 and 2), the font is the spec's (R11). -/
def constructionArguments : Params :=
  Params.withDefaultFont (Quirks.ofBits Config.quirkBits) (Config.budgetLessOne + 1)

/-- The byte at address `a` right after construction (R41, R49): row r of digit d at
`FONT_BASE + 5 d + r`, 0 everywhere else. It is what an unlisted address of memory reads as (log 13). -/
def Params.resetByte (p : Params) (a : Nat) : Byte :=
  if h : p.fontBase.toNat ≤ a ∧ a < p.fontBase.toNat + 80 then
    (p.fontGlyphs[(a - p.fontBase.toNat) / 5]'(by omega))[(a - p.fontBase.toNat) % 5]'(by omega)
  else 0

end Sys2Proof
end

