-- ==== Sys2Proof/Machine/State.lean ====
section
/-! DEFINITION. The state of the CORE (R30 to R47), what stops the model, and the state after
construction (R48, R350, R352). -/

namespace Sys2Proof.Machine

/-- The fatal causes of R44, raised as R301 to R306 say. -/
inductive Cause where
  /-- code 1: the loader, program longer than 3584 bytes (R301) -/
  | programTooLarge
  /-- code 2: 2NNN with SP = 16 (R302) -/
  | stackOverflow
  /-- code 3: 00EE with SP = 0 (R303) -/
  | stackUnderflow
  /-- code 4: a data access beyond 0xFFF (R304) -/
  | memoryOutOfRange
  /-- code 5: a fetch with PC above 0xFFE (R305) -/
  | fetchOutOfRange
  /-- code 6: EX9E or EXA1 with V[x] above 0xF (R306) -/
  | keyIndexOutOfRange
deriving DecidableEq, Repr

/-- The halt status (R44): RUNNING or one fatal cause. -/
inductive Halt where
  | running
  | fatal (c : Cause)
deriving DecidableEq, Repr

/-- A diagnostic event (R314): the PC of an unrecognised word, and the word. -/
inductive DiagEvent where
  | unknownOpcode (pc w : Word)
deriving DecidableEq, Repr

/-- Memory (R41, R60) as the bytes that differ from their reset contents, addresses strictly rising. -/
abbrev Memory := List Host.Cell

/-- The pixel buffer (R40): 32 rows of 64 pixels, `true` is set. `pix[x][y]` is row y, column x. -/
abbrev Display := Vector (Vector Bool 64) 32

/-- The state: every piece R30 to R46 name, the construction arguments (log 3), and two fields of the
model's own, `ran` (log 16) and the counter `draws` (log 5). -/
structure State where
  /-- V[0] to V[15] (R30, R31) -/
  v         : Vector Byte 16
  /-- the address register I (R33) -/
  i         : Word
  /-- PC (R34) -/
  pc        : Word
  /-- SP, the number of return addresses on the stack (R35) -/
  sp        : Byte
  /-- stack[0..15] (R36) -/
  stack     : Vector Word 16
  /-- DT (R37) -/
  dt        : Byte
  /-- ST (R38) -/
  st        : Byte
  /-- key[0..15], `true` is pressed (R39) -/
  key       : Vector Bool 16
  /-- the pixel buffer (R40) -/
  pix       : Display
  /-- mem[0x000..0xFFF] (R41) -/
  mem       : Memory
  /-- QUIRKS (R42) and the other construction arguments (R11); never written -/
  params    : Params
  /-- the first Step or Tick has happened (R43) -/
  started   : Bool
  /-- the loader has run (R43) -/
  loaded    : Bool
  /-- the first Run has happened: what Load must come before (R339, D28, log 16) -/
  ran       : Bool
  /-- HALT (R44) -/
  halt      : Halt
  /-- real time since the last tick (R45) -/
  sinceTick : Duration
  /-- the diagnostic output, oldest first (R46) -/
  diag      : List DiagEvent
  /-- the model's own: how many random bytes have been drawn (log 5) -/
  draws     : Nat
deriving DecidableEq, Repr

/-- What stops the model without a next state. A fatal error of the spec is none of these: it is a next
state with `halt` set (R300, log 6). -/
inductive Fault where
  /-- Raised by 2NNN and 00EE when SP is above 16, a value R35 calls unreachable, so that the stack entry
  does not exist. Safe: no run from a constructed engine reaches it (log 7). -/
  | stackPointerIllegal
deriving DecidableEq, Repr

/-- What the model gives no meaning. -/
inductive Refusal where
  /-- Raised by exec's arm of an instruction that has no meaning yet. Safe. No arm raises it. -/
  | notModelled (mnemonic : String)
  /-- Raised by Load when the engine has started, has run, has loaded or has halted (R331: "otherwise
  refused: the operation has no meaning"; D28, R339, log 16). Safe. -/
  | loadNotAdmitted
  /-- Raised by SetKey when the index is not in 0..15 (R332: "otherwise refused"). Safe. -/
  | setKeyIndexRefused
deriving DecidableEq, Repr

/-- The answer of every operation of the machine. -/
abbrev Result := Host.Outcome State Fault Refusal

/-- Construct (R336): the engine right after construction with the given arguments (R48, R350, R352).
Memory lists nothing, so every byte reads as its reset contents (R41). -/
def State.construct (p : Params) : State :=
  { v := .replicate 16 0
    i := 0
    pc := 0x200
    sp := 0
    stack := .replicate 16 0
    dt := 0
    st := 0
    key := .replicate 16 false
    pix := .replicate 32 (.replicate 64 false)
    mem := []
    params := p
    started := false
    loaded := false
    ran := false
    halt := .running
    sinceTick := 0
    diag := []
    draws := 0 }

/-- The machine right after reset, which is construction (R350). The quirks and the budget are free
values (logs 1 and 2). -/
def State.reset : State := State.construct constructionArguments

end Sys2Proof.Machine
end

