-- ==== Sys2Proof/Machine/Ops.lean ====
section
/-! DEFINITION. The named operations over registers, stack, memory and control state; raising a fatal
error (R16, R300), the only exception the CORE has; fetching a word (R80). -/

namespace Sys2Proof.Machine

/-! ### Registers -/

/-- VF, register 0xF, the flags register (R31). -/
abbrev VF : RegId := 0xF#4

/-- `V[x]` read (R14, R30). -/
def State.readV (s : State) (x : RegId) : Byte := s.v[x.toNat]'x.isLt

/-- `V[x] <- b` (R14, R30). -/
def State.writeV (s : State) (x : RegId) (b : Byte) : State :=
  { s with v := s.v.set x.toNat b x.isLt }

/-- `I <- w` (R33). -/
def State.writeI (s : State) (w : Word) : State := { s with i := w }

/-- `pc <- w` (R14). -/
def State.writePc (s : State) (w : Word) : State := { s with pc := w }

/-- `DT <- b` (R37). -/
def State.writeDt (s : State) (b : Byte) : State := { s with dt := b }

/-- `ST <- b` (R38). -/
def State.writeSt (s : State) (b : Byte) : State := { s with st := b }

/-- The pixel buffer replaced (R40). -/
def State.writePix (s : State) (d : Display) : State := { s with pix := d }

/-- `SP <- b` (R35). -/
def State.writeSp (s : State) (b : Byte) : State := { s with sp := b }

/-- `stack[k] <- w` (R36). -/
def State.writeStack (s : State) (k : Fin 16) (w : Word) : State :=
  { s with stack := s.stack.set k.val w k.isLt }

/-- `key[k]` read (R39). -/
def State.keyDown (s : State) (k : Fin 16) : Bool := s.key[k.val]

/-- `key[k] <- pressed` (R332). -/
def State.writeKey (s : State) (k : Fin 16) (pressed : Bool) : State :=
  { s with key := s.key.set k.val pressed k.isLt }

/-- `pix[x][y]` read (R40). -/
def Display.pixel (d : Display) (x : Fin 64) (y : Fin 32) : Bool := d[y.val][x.val]

/-- `pix[x][y] <- b` (R40). -/
def Display.setPixel (d : Display) (x : Fin 64) (y : Fin 32) (b : Bool) : Display :=
  d.set y.val (d[y.val].set x.val b)

/-! ### The control-flow classes (R19) -/

/-- Class `advance`: `pc <- (pc + 2) mod 2^16` (R19). -/
def State.advance (s : State) : State := s.writePc (s.pc + 2)

/-- Class `conditional-skip`: `pc + 4` if the predicate holds, else `pc + 2`, modulo 2^16 (R19). -/
def State.skipIf (s : State) (c : Bool) : State :=
  s.writePc (if c then s.pc + 4 else s.pc + 2)

/-! ### Memory (R60 to R67) -/

/-- The byte memory holds at an address: the listed one, else the reset contents (R41, R69). -/
def Memory.get (p : Params) : Memory → Nat → Byte
  | [], a => p.resetByte a
  | (k, b) :: m, a => if k = a then b else Memory.get p m a

/-- Memory with one byte written, in canonical form: in its place by address, and not listed when it is
the reset contents (R69). -/
def Memory.put (p : Params) : Memory → Nat → Byte → Memory
  | [], a, b => if b = p.resetByte a then [] else [(a, b)]
  | (k, c) :: m, a, b =>
    if a < k then (if b = p.resetByte a then (k, c) :: m else (a, b) :: (k, c) :: m)
    else if a = k then (if b = p.resetByte a then m else (a, b) :: m)
    else (k, c) :: Memory.put p m a b

/-- The canonical form: addresses strictly rising and inside the space (R60), no byte equal to what the
address reads as when it is not listed. -/
abbrev Memory.wf (p : Params) (m : Memory) : Prop :=
  m.Pairwise (fun c d => c.1 < d.1) ∧ ∀ c ∈ m, c.1 < Config.memSize ∧ c.2 ≠ p.resetByte c.1

/-- `mem[a]` read. -/
def State.byteAt (s : State) (a : Nat) : Byte := Memory.get s.params s.mem a

/-- The range check of `MemRead(a, n)` and `MemWrite(a, n, …)` for n ≥ 1: `a + n − 1 ≤ 0xFFF`
(R15, R63). Addresses are unbounded integers, never wrapped (R180). -/
def accessInRange (a n : Nat) : Bool := decide (a + n ≤ Config.memSize)

/-- The bytes `mem[a], …, mem[a + n − 1]` (R15). -/
def State.readBytes (s : State) (a n : Nat) : List Byte :=
  (List.range n).map (fun k => s.byteAt (a + k))

/-- Memory with bytes written from address `a` upward (R15). -/
def Memory.putBytes (p : Params) : Memory → Nat → List Byte → Memory
  | m, _, [] => m
  | m, a, b :: bs => Memory.putBytes p (Memory.put p m a b) (a + 1) bs

/-- The bytes `mem[a], mem[a + 1], …` written (R15). -/
def State.writeBytes (s : State) (a : Nat) (bs : List Byte) : State :=
  { s with mem := Memory.putBytes s.params s.mem a bs }

/-- `V[k] <- bk` for the bytes of a list, from register number `k` upward (R186). -/
def loadRegisters (v : Vector Byte 16) (k : Nat) : List Byte → Vector Byte 16
  | [] => v
  | b :: bs => loadRegisters (v.setIfInBounds k b) (k + 1) bs

/-! ### Control state, errors and the diagnostic output -/

/-- `raise Fatal(cause)`: HALT is set, nothing else changes and control goes nowhere (R16, R300, R309).
There is no return from it (R310). -/
def State.raiseFatal (s : State) (c : Cause) : Result := .next { s with halt := .fatal c }

/-- The cause codes of R44. -/
def Halt.code : Halt → Nat
  | .running => 0
  | .fatal .programTooLarge => 1
  | .fatal .stackOverflow => 2
  | .fatal .stackUnderflow => 3
  | .fatal .memoryOutOfRange => 4
  | .fatal .fetchOutOfRange => 5
  | .fatal .keyIndexOutOfRange => 6

/-- `log Diag(UnknownOpcode(pc, w))` (R16, R314). -/
def State.logUnknown (s : State) (w : Word) : State :=
  { s with diag := s.diag ++ [.unknownOpcode s.pc w] }

/-- `started <- true` (R43, R316). -/
def State.start (s : State) : State := { s with started := true }

/-- `draw RNG()`: the byte of the next draw (R16, R112); free, log 5. -/
def State.drawnByte (s : State) : Byte := Config.randomByte s.draws

/-- The draw is used up: the next one is fresh (R112). -/
def State.countDraw (s : State) : State := { s with draws := s.draws + 1 }

/-! ### Fetch (R80) -/

/-- `PC ≤ 0xFFE` (R80). -/
def State.fetchable (s : State) : Bool := decide (s.pc.toNat ≤ 0xFFE)

/-- `Fetch(pc) = mem[pc] ‖ mem[pc + 1]`, big-endian (R15, R64, R80). -/
def State.fetchWord (s : State) : Word :=
  wordOf (s.byteAt s.pc.toNat) (s.byteAt (s.pc.toNat + 1))

/-- A state whose next fetch reads `w`: the two bytes stored where PC points, with the engine running and
PC moved to the entry point only if it could not be fetched from (log 10). -/
def State.placeWord (s : State) (w : Word) : State :=
  let s' := if s.fetchable then s else s.writePc 0x200
  { s'.writeBytes s'.pc.toNat [highByte w, lowByte w] with halt := .running }

end Sys2Proof.Machine
end

