-- ==== Sys2Proof/Machine/Flags.lean ====
section
/-! DEFINITION. Every flag computation: VF is the only flag (R32). -/

namespace Sys2Proof.Machine

/-- A flag as the byte VF receives. -/
def flagByte (c : Bool) : Byte := if c then 1 else 0

/-- Carry of `a + b`: the 9-bit sum is above 255 (R107, R113). -/
def carryFlag (a b : Byte) : Byte := flagByte (decide (255 < a.toNat + b.toNat))

/-- No-borrow of `a − b`: `a ≥ b`, the inverted polarity (R108, R109, R113). -/
def noBorrowFlag (a b : Byte) : Byte := flagByte (decide (b.toNat ≤ a.toNat))

/-- The bit a right shift by 1 shifts out: bit 0 (R110). -/
def shiftedOutRight (src : Byte) : Byte := src &&& 1

/-- The bit a left shift by 1 shifts out: bit 7 (R111). -/
def shiftedOutLeft (src : Byte) : Byte := (src >>> 7) &&& 1

/-- `if QUIRKS.vf_reset then VF <- 0` after a bitwise operation (R104). -/
def State.clearFlagIfLegacy (s : State) : State :=
  s.writeV VF (if s.params.quirks.vfReset then 0 else s.readV VF)

end Sys2Proof.Machine
end

