-- ==== Sys2Proof/Machine/Operands.lean ====
section
/-! DEFINITION. The operand forms that are more than a register or a field: extended addresses, the shift
source, the glyph address, BCD digits, the register block, the sprite origin, the lowest pressed key. -/

namespace Sys2Proof.Machine

/-- `zext_16(nnn)` (R84, R86). -/
def extendAddr (nnn : Addr) : Word := nnn.setWidth 16

/-- `zext_16(V[x])` (R146, R182). -/
def extendByte (b : Byte) : Word := b.setWidth 16

/-- The value a shift works on: `QUIRKS.shift_vy ? V[y] : V[x]` (R110, R111). -/
def State.shiftSource (s : State) (x y : RegId) : Byte :=
  if s.params.quirks.shiftVy then s.readV y else s.readV x

/-- `FONT_BASE + 5 × d` with d the low nibble of the value (R183). -/
def State.glyphAddress (s : State) (b : Byte) : Word :=
  extendAddr s.params.fontBase + 5 * extendByte (b &&& 0x0F)

/-- The hundreds, tens and ones digits, hundreds first (R184). -/
def bcdDigits (b : Byte) : List Byte :=
  [BitVec.ofNat 8 (b.toNat / 100), BitVec.ofNat 8 (b.toNat / 10 % 10), BitVec.ofNat 8 (b.toNat % 10)]

/-- How many registers a block transfer of `0..=x` moves: x + 1 (R185, R186). -/
def blockLength (x : RegId) : Nat := x.toNat + 1

/-- `[V[0], V[1], …, V[x]]` (R185). -/
def State.registerBlock (s : State) (x : RegId) : List Byte := s.v.toList.take (blockLength x)

/-- `if QUIRKS.mem_inc_i then I <- (I + x + 1) mod 2^16` (R185, R186). -/
def State.bumpIIfLegacy (s : State) (x : RegId) : State :=
  s.writeI (if s.params.quirks.memIncI then s.i + BitVec.ofNat 16 (blockLength x) else s.i)

/-- `V[x] mod 64`, the column of a sprite's origin (R211). -/
def originX (b : Byte) : Nat := b.toNat % 64

/-- `V[y] mod 32`, the row of a sprite's origin (R211). -/
def originY (b : Byte) : Nat := b.toNat % 32

/-- `min { k | key[k] }`, if any key is pressed (R246). -/
def State.lowestKey (s : State) : Option Nat := s.key.toList.findIdx? id

end Sys2Proof.Machine
end

