-- ==== Sys2Proof/Machine/Alu.lean ====
section
/-! DEFINITION. The register and ALU instructions (spec/41_register_alu.md). All operands are read from
the state before the instruction; the result is written first and the flag second (R100). -/

namespace Sys2Proof.Machine

/-- `V[x] <- r; VF <- f; pc <- pc + 2`, in that order (R100). -/
def State.resultThenFlag (s : State) (x : RegId) (r f : Byte) : Result :=
  .next ((s.writeV x r).writeV VF f).advance

/-- `V[x] <- r; if QUIRKS.vf_reset then VF <- 0; pc <- pc + 2` (R104). -/
def State.bitwiseResult (s : State) (x : RegId) (r : Byte) : Result :=
  .next (s.writeV x r).clearFlagIfLegacy.advance

/-- R101 -/
def execLdVxNn (x : RegId) (nn : Byte) (s : State) : Result := .next (s.writeV x nn).advance

/-- R102: no flag. -/
def execAddVxNn (x : RegId) (nn : Byte) (s : State) : Result :=
  .next (s.writeV x (s.readV x + nn)).advance

/-- R103 -/
def execLdVxVy (x y : RegId) (s : State) : Result := .next (s.writeV x (s.readV y)).advance

/-- R104 -/
def execOrVxVy (x y : RegId) (s : State) : Result := s.bitwiseResult x (s.readV x ||| s.readV y)

/-- R105 -/
def execAndVxVy (x y : RegId) (s : State) : Result := s.bitwiseResult x (s.readV x &&& s.readV y)

/-- R106 -/
def execXorVxVy (x y : RegId) (s : State) : Result := s.bitwiseResult x (s.readV x ^^^ s.readV y)

/-- R107 -/
def execAddVxVy (x y : RegId) (s : State) : Result :=
  s.resultThenFlag x (s.readV x + s.readV y) (carryFlag (s.readV x) (s.readV y))

/-- R108: `V[x] − V[y]`. -/
def execSubVxVy (x y : RegId) (s : State) : Result :=
  s.resultThenFlag x (s.readV x - s.readV y) (noBorrowFlag (s.readV x) (s.readV y))

/-- R109: `V[y] − V[x]`. -/
def execSubnVxVy (x y : RegId) (s : State) : Result :=
  s.resultThenFlag x (s.readV y - s.readV x) (noBorrowFlag (s.readV y) (s.readV x))

/-- R110 -/
def execShrVxVy (x y : RegId) (s : State) : Result :=
  s.resultThenFlag x (s.shiftSource x y >>> 1) (shiftedOutRight (s.shiftSource x y))

/-- R111 -/
def execShlVxVy (x y : RegId) (s : State) : Result :=
  s.resultThenFlag x (s.shiftSource x y <<< 1) (shiftedOutLeft (s.shiftSource x y))

/-- R112: a fresh free byte, masked (log 5). -/
def execRndVxNn (x : RegId) (nn : Byte) (s : State) : Result :=
  .next (s.writeV x (s.drawnByte &&& nn)).countDraw.advance

end Sys2Proof.Machine
end

