-- ==== Sys2Proof/Machine/Control.lean ====
section
/-! DEFINITION. The control transfer instructions and the unrecognised word (spec/42_control_flow.md).
Targets are not checked here: a target above 0xFFE faults at the next fetch (R150). -/

namespace Sys2Proof.Machine

/-- R141 -/
def execSeVxNn (x : RegId) (nn : Byte) (s : State) : Result := .next (s.skipIf (s.readV x == nn))

/-- R142 -/
def execSneVxNn (x : RegId) (nn : Byte) (s : State) : Result := .next (s.skipIf (s.readV x != nn))

/-- R143 -/
def execSeVxVy (x y : RegId) (s : State) : Result := .next (s.skipIf (s.readV x == s.readV y))

/-- R144 -/
def execSneVxVy (x y : RegId) (s : State) : Result := .next (s.skipIf (s.readV x != s.readV y))

/-- R145 -/
def execJpNnn (nnn : Addr) (s : State) : Result := .next (s.writePc (extendAddr nnn))

/-- R146: always V0, and the sum is not reduced to 12 bits. -/
def execJpV0Nnn (nnn : Addr) (s : State) : Result :=
  .next (s.writePc (extendAddr nnn + extendByte (s.readV 0)))

/-- R147: pushes the address of the instruction after the call. SP above 16 is no legal state (log 7). -/
def execCallNnn (nnn : Addr) (s : State) : Result :=
  if s.sp = 16 then s.raiseFatal .stackOverflow
  else if h : s.sp.toNat < 16 then
    .next (((s.writeStack ⟨s.sp.toNat, h⟩ (s.pc + 2)).writeSp (s.sp + 1)).writePc (extendAddr nnn))
  else .fault .stackPointerIllegal

/-- R148: the popped entry is not cleared. SP above 16 is no legal state (log 7). -/
def execRet (s : State) : Result :=
  if s.sp = 0 then s.raiseFatal .stackUnderflow
  else if h : (s.sp - 1).toNat < 16 then
    .next ((s.writeSp (s.sp - 1)).writePc (s.stack[(s.sp - 1).toNat]'h))
  else .fault .stackPointerIllegal

/-- R149: an unrecognised word is logged and advances. -/
def execUnknown (w : Word) (s : State) : Result := .next (s.logUnknown w).advance

end Sys2Proof.Machine
end

