-- ==== Sys2Proof/Machine/Display.lean ====
section
/-! DEFINITION. The display instructions (spec/44_display.md): the two loops of R211 as recursion over the
columns of a row and over the rows of a sprite, and clear-screen (R212). -/

namespace Sys2Proof.Machine

/-- The pixel buffer and the collision flag while a sprite is drawn (R211). -/
structure Canvas where
  pix : Display
  col : Bool
deriving DecidableEq, Repr

/-- One bit of a sprite landing on a pixel: a 1 bit inverts it, and sets the collision flag if it was set;
a 0 bit leaves both (R210, R211). -/
def Canvas.plot (a : Canvas) (x : Fin 64) (y : Fin 32) (bit : Bool) : Canvas :=
  if bit then
    { pix := a.pix.setPixel x y (!a.pix.pixel x y), col := a.col || a.pix.pixel x y }
  else a

/-- A column reduced to the screen: `px mod 64` (R211). -/
def wrapX (px : Nat) : Fin 64 := ⟨px % 64, Nat.mod_lt _ (by decide)⟩

/-- A row reduced to the screen: `py mod 32` (R211). -/
def wrapY (py : Nat) : Fin 32 := ⟨py % 32, Nat.mod_lt _ (by decide)⟩

/-- The loop over the columns `cs` of one row: bit `7 − c` of the row byte is column offset c (R210); in
clip mode the first column past the right edge ends the row (R214). -/
def drawColumns (clip : Bool) (ox : Nat) (y : Fin 32) (row : Byte) : List Nat → Canvas → Canvas
  | [], a => a
  | c :: cs, a =>
    if clip && decide (64 ≤ ox + c) then a
    else drawColumns clip ox y row cs (a.plot (wrapX (ox + c)) y (row.getLsbD (7 - c)))

/-- The loop over the rows, `r` the row offset of the first: in clip mode the first row past the bottom
edge ends the sprite (R214). -/
def drawRows (clip : Bool) (ox oy : Nat) : Nat → List Byte → Canvas → Canvas
  | _, [], a => a
  | r, row :: rows, a =>
    if clip && decide (32 ≤ oy + r) then a
    else drawRows clip ox oy (r + 1) rows
      (drawColumns clip ox (wrapY (oy + r)) row [0, 1, 2, 3, 4, 5, 6, 7] a)

/-- The sprite of n rows at I drawn at the origin `V[x], V[y]` (R211). -/
def State.drawSprite (s : State) (x y : RegId) (n : BitVec 4) : Canvas :=
  drawRows s.params.quirks.drawClip (originX (s.readV x)) (originY (s.readV y)) 0
    (s.readBytes s.i.toNat n.toNat) { pix := s.pix, col := false }

/-- R211, R216: with n = 0 no memory is read, nothing is drawn and VF is 0. -/
def execDrwVxVyN (x y : RegId) (n : BitVec 4) (s : State) : Result :=
  if n = 0 then .next (s.writeV VF 0).advance
  else if accessInRange s.i.toNat n.toNat then
    .next ((s.writePix (s.drawSprite x y n).pix).writeV VF
      (flagByte (s.drawSprite x y n).col)).advance
  else s.raiseFatal .memoryOutOfRange

/-- The clear pixel buffer (R212). -/
def clearDisplay : Display := .replicate 32 (.replicate 64 false)

/-- R212 -/
def execCls (s : State) : Result := .next (s.writePix clearDisplay).advance

end Sys2Proof.Machine
end

