-- ==== Sys2Proof/Machine/KeysTimers.lean ====
section
/-! DEFINITION. The key and timer instructions (spec/45_keys_timers.md). Instructions only read the key
state (R240). -/

namespace Sys2Proof.Machine

/-- The key named by `V[x]`, with its index checked: above 0xF is fatal (R240). -/
def State.skipOnKey (s : State) (x : RegId) (wanted : Bool) : Result :=
  if h : (s.readV x).toNat < 16 then
    .next (s.skipIf (s.keyDown ⟨(s.readV x).toNat, h⟩ == wanted))
  else s.raiseFatal .keyIndexOutOfRange

/-- R241 -/
def execSkpVx (x : RegId) (s : State) : Result := s.skipOnKey x true

/-- R242 -/
def execSknpVx (x : RegId) (s : State) : Result := s.skipOnKey x false

/-- R243 -/
def execLdVxDt (x : RegId) (s : State) : Result := .next (s.writeV x s.dt).advance

/-- R244 -/
def execLdDtVx (x : RegId) (s : State) : Result := .next (s.writeDt (s.readV x)).advance

/-- R245 -/
def execLdStVx (x : RegId) (s : State) : Result := .next (s.writeSt (s.readV x)).advance

/-- R246: the lowest pressed key is recorded; with none pressed the step is blocked and nothing changes,
PC included. -/
def execLdVxK (x : RegId) (s : State) : Result :=
  match s.lowestKey with
  | some k => .next (s.writeV x (BitVec.ofNat 8 k)).advance
  | none => .next s

end Sys2Proof.Machine
end

