-- ==== Sys2Proof/Machine/Transfer.lean ====
section
/-! DEFINITION. The address-register and memory-transfer instructions (spec/43_memory_transfer.md).
Addresses are `I + k` as unbounded integers; the whole range is checked before any byte moves (R180). -/

namespace Sys2Proof.Machine

/-- R181 -/
def execLdINnn (nnn : Addr) (s : State) : Result := .next (s.writeI (extendAddr nnn)).advance

/-- R182: VF is not written. -/
def execAddIVx (x : RegId) (s : State) : Result :=
  .next (s.writeI (s.i + extendByte (s.readV x))).advance

/-- R183 -/
def execLdFVx (x : RegId) (s : State) : Result := .next (s.writeI (s.glyphAddress (s.readV x))).advance

/-- R184: I is not changed. -/
def execLdBVx (x : RegId) (s : State) : Result :=
  if accessInRange s.i.toNat 3 then
    .next (s.writeBytes s.i.toNat (bcdDigits (s.readV x))).advance
  else s.raiseFatal .memoryOutOfRange

/-- R185 -/
def execLdMemVx (x : RegId) (s : State) : Result :=
  if accessInRange s.i.toNat (blockLength x) then
    .next ((s.writeBytes s.i.toNat (s.registerBlock x)).bumpIIfLegacy x).advance
  else s.raiseFatal .memoryOutOfRange

/-- `V[0..x]` loaded from memory at I (R186). -/
def State.loadBlock (s : State) (x : RegId) : State :=
  { s with v := loadRegisters s.v 0 (s.readBytes s.i.toNat (blockLength x)) }

/-- R186 -/
def execLdVxMem (x : RegId) (s : State) : Result :=
  if accessInRange s.i.toNat (blockLength x) then
    .next ((s.loadBlock x).bumpIIfLegacy x).advance
  else s.raiseFatal .memoryOutOfRange

end Sys2Proof.Machine
end

