-- ==== Sys2Proof/Machine/Execute.lean ====
section
/-! DEFINITION. The body of a step: fetch, decode, execute (R80 to R82). -/

namespace Sys2Proof.Machine

/-- Execute what the decoder reads from a word (R81, R82): the instruction, or the logged no-op of an
unrecognised word (R149). -/
def runWord (w : Word) (s : State) : Result :=
  match decode w with
  | .instr i => exec i s
  | .unknown u => execUnknown u s

/-- Fetch, decode and execute on a running engine (R80, R308). -/
def fetchAndRun (s : State) : Result :=
  if s.fetchable then runWord s.fetchWord s else s.raiseFatal .fetchOutOfRange

/-- The whole step in the order of R308: a halted engine does nothing (R307); otherwise `started` is set
before the fetch, and a fault does not undo it (R316). -/
def stepState (s : State) : Result :=
  if s.halt = .running then fetchAndRun s.start else .next s

end Sys2Proof.Machine
end

