-- ==== Sys2Proof/Machine/Step.lean ====
section
/-! DEFINITION. The step (R316), and a state whose next step runs a given word. -/

namespace Sys2Proof.Machine

/-- A Step: one pass of the fetch-decode-execute loop (R316). -/
def step (s : State) : Host.Outcome State Fault Refusal := stepState s

/-- The state with the word of an opcode-table row stored where `step` fetches its next instruction
(logs 9 and 10). -/
def State.withFetchWord (s : State) (nbits w : Nat) : State := s.placeWord (tableWord nbits w)

end Sys2Proof.Machine
end

