-- ==== Sys2Proof/Machine/HostOps.lean ====
section
/-! DEFINITION. The host's operations (spec/60_exceptions.md): the timer tick and its batch, Run, Load,
SetKey and the reads. Each is atomic and none runs inside another (R330). -/

namespace Sys2Proof.Machine

/-! ### Timers and the tick -/

/-- `if T > 0 then T <- T − 1` (R320). -/
def countDown (t : Byte) : Byte := if t = 0 then 0 else t - 1

/-- Both timers counted down, independently (R320). -/
def State.countTimers (s : State) : State := (s.writeDt (countDown s.dt)).writeSt (countDown s.st)

/-- The outcomes of a Step (R316). -/
inductive StepOutcome where
  | done
  | blocked
  | faulted (c : Cause)
  | idle
deriving DecidableEq, Repr

/-- The word that would be fetched is FX0A and no key is pressed: the step is blocked (R246, log 14). -/
def State.waitsForKey (s : State) : Bool :=
  s.fetchable &&
    match decode s.fetchWord with
    | .instr (.ldVxK _) => s.lowestKey.isNone
    | _ => false

/-- The outcome of a Step from `s` that ended in `t` (R316). -/
def stepOutcome (s t : State) : StepOutcome :=
  match s.halt, t.halt with
  | .fatal _, _ => .idle
  | .running, .fatal c => .faulted c
  | .running, .running => if s.waitsForKey then .blocked else .done

/-- The batch ends early after a step that blocked or faulted (R323). -/
def StepOutcome.endsBatch : StepOutcome → Bool
  | .done => false
  | .blocked => true
  | .faulted _ => true
  | .idle => false

/-- At most `budget` steps (R323). -/
def batch : Nat → State → Result
  | 0, s => .next s
  | budget + 1, s =>
    match step s with
    | .next t => if (stepOutcome s t).endsBatch then .next t else batch budget t
    | .fault f => .fault f
    | .refused r => .refused r

/-- A Tick: the timers first, then the batch; nothing at all on a halted engine (R322, R307). -/
def tick (s : State) : Result :=
  if s.halt = .running then batch s.params.instructionsPerTick s.start.countTimers else .next s

/-- The tick clock set. -/
def State.writeSinceTick (s : State) (d : Duration) : State := { s with sinceTick := d }

/-- The first Run has happened (R339, D28, log 16). -/
def State.markRan (s : State) : State := { s with ran := true }

/-- Run(elapsed): at most one Tick, and time beyond the period is discarded (R321). -/
def hostRun (elapsed : Duration) (s : State) : Result :=
  if Config.tickPeriod ≤ s.sinceTick + elapsed then tick (s.markRan.writeSinceTick 0)
  else .next (s.markRan.writeSinceTick (s.sinceTick + elapsed))

/-! ### Loading and input -/

/-- Load is admitted before the first Step, Tick (R331, R43) or Run (R339, D28, log 16), once, on a running
engine. -/
def State.admitsLoad (s : State) : Bool :=
  !s.started && !s.ran && !s.loaded && s.halt == .running

/-- `loaded <- true` (R331). -/
def State.markLoaded (s : State) : State := { s with loaded := true }

/-- Load(bytes) (R331): a program longer than 3584 bytes is fatal before `loaded` is set. -/
def hostLoad (bytes : List Byte) (s : State) : Result :=
  if s.admitsLoad then
    if bytes.length ≤ Config.maxProg then .next (s.markLoaded.writeBytes Config.progStart bytes)
    else s.raiseFatal .programTooLarge
  else .refused .loadNotAdmitted

/-- SetKey(index, pressed) (R332); a halted engine accepts it (R307). -/
def hostSetKey (index : Nat) (pressed : Bool) (s : State) : Result :=
  if h : index < 16 then .next (s.writeKey ⟨index, h⟩ pressed) else .refused .setKeyIndexRefused

/-! ### The reads, which change nothing -/

/-- ReadPixels (R333). -/
def readPixels (s : State) : Display := s.pix

/-- ReadSound (R334): ST and `ST > 0`. -/
def readSound (s : State) : Byte × Bool := (s.st, decide (0 < s.st.toNat))

/-- ReadHalt (R335). -/
def readHalt (s : State) : Halt := s.halt

/-- ReadDiag (R337), oldest first. -/
def readDiag (s : State) : List DiagEvent := s.diag

/-! ### Every move the host can make (R330, R339) -/

/-- The operations that can change a constructed engine. -/
inductive HostMove where
  | load (bytes : List Byte)
  | setKey (index : Nat) (pressed : Bool)
  | run (elapsed : Duration)
  | step
deriving DecidableEq, Repr

/-- One host operation performed (R330). -/
def hostMove (m : HostMove) (s : State) : Result :=
  match m with
  | .load bytes => hostLoad bytes s
  | .setKey index pressed => hostSetKey index pressed s
  | .run elapsed => hostRun elapsed s
  | .step => step s

end Sys2Proof.Machine
end

