-- ==== Sys2Proof/WellFormed.lean ====
section
/-! DEFINITION. The checks on terms a host hands to the CORE. An `Instr` needs none: its operands are
typed by their fields (R84: any value is legal in every field), so no ill-formed instruction can be
written. What can be ill formed is a set of construction arguments, a program image and a key index. -/

namespace Sys2Proof

/-- Legal construction arguments: a budget of at least 1, and a font inside the region
0x000 to 0x1FF reserved for it (R11, R61). Every quirk setting is legal (R42). -/
abbrev Params.WellFormed (p : Params) : Prop :=
  1 ≤ p.instructionsPerTick ∧ p.fontBase.toNat + 80 ≤ Config.progStart

/-- A program image the loader takes: at most 3584 bytes (R9, R331). -/
abbrev ProgramWellFormed (bytes : List Byte) : Prop :=
  bytes.length ≤ Config.maxProg

/-- A key index the key setter takes: 0 to 15 (R332). -/
abbrev KeyIndexWellFormed (k : Nat) : Prop :=
  k < 16

end Sys2Proof
end

