-- ==== Sys2Proof/Safety.lean ====
section
/-! DEFINITION. The terms claims use: the parts of the state and what it is for two states to agree on
all parts but some, the control-flow class, the fault and the writers of each instruction, where a sprite
lands, and the invariant of every engine. -/

namespace Sys2Proof.Machine

/-! ### Frames -/

/-- The parts of the state, one for each piece that can change by itself. -/
inductive Part where
  | reg (x : RegId)
  | i
  | pc
  | sp
  | stackSlot (k : Fin 16)
  | dt
  | st
  | key (k : Fin 16)
  | pixel (x : Fin 64) (y : Fin 32)
  | memByte (a : Nat)
  | params
  | started
  | loaded
  | ran
  | halt
  | sinceTick
  | diag
  | draws
deriving DecidableEq, Repr

/-- The two states agree on one part. Memory is compared by reading one byte. -/
def Part.same : Part → State → State → Prop
  | .reg x, s, t => t.readV x = s.readV x
  | .i, s, t => t.i = s.i
  | .pc, s, t => t.pc = s.pc
  | .sp, s, t => t.sp = s.sp
  | .stackSlot k, s, t => t.stack[k.val] = s.stack[k.val]
  | .dt, s, t => t.dt = s.dt
  | .st, s, t => t.st = s.st
  | .key k, s, t => t.keyDown k = s.keyDown k
  | .pixel x y, s, t => t.pix.pixel x y = s.pix.pixel x y
  | .memByte a, s, t => t.byteAt a = s.byteAt a
  | .params, s, t => t.params = s.params
  | .started, s, t => t.started = s.started
  | .loaded, s, t => t.loaded = s.loaded
  | .ran, s, t => t.ran = s.ran
  | .halt, s, t => t.halt = s.halt
  | .sinceTick, s, t => t.sinceTick = s.sinceTick
  | .diag, s, t => t.diag = s.diag
  | .draws, s, t => t.draws = s.draws

/-- The frame: the two states agree on every part but those said to change. -/
def SameExcept (changed : Part → Prop) (s t : State) : Prop :=
  ∀ p, ¬ changed p → p.same s t

/-- PC moved on by one instruction: `pc <- (pc + 2) mod 2^16` (R19). -/
def Advances (s t : State) : Prop := t.pc.toNat = (s.pc.toNat + 2) % 2 ^ 16

/-- PC moved on by two instructions: `pc <- (pc + 4) mod 2^16` (R19). -/
def SkipsNext (s t : State) : Prop := t.pc.toNat = (s.pc.toNat + 4) % 2 ^ 16

end Sys2Proof.Machine

namespace Sys2Proof

open Machine

/-! ### Classes of instructions -/

/-- The control-flow classes of R19. -/
inductive FlowClass where
  | advance
  | conditionalSkip
  | jumpCallReturn
  | blockingWait
deriving DecidableEq, Repr

/-- The control-flow class of an instruction (R19, and each instruction's own rule). -/
def Instr.flow : Instr → FlowClass
  | .jpNnn _ | .jpV0Nnn _ | .callNnn _ | .ret => .jumpCallReturn
  | .seVxNn _ _ | .sneVxNn _ _ | .seVxVy _ _ | .sneVxVy _ _ | .skpVx _ | .sknpVx _ => .conditionalSkip
  | .ldVxK _ => .blockingWait
  | .cls | .ldVxNn _ _ | .addVxNn _ _ | .ldVxVy _ _ | .orVxVy _ _ | .andVxVy _ _ | .xorVxVy _ _
  | .addVxVy _ _ | .subVxVy _ _ | .shrVxVy _ _ | .subnVxVy _ _ | .shlVxVy _ _ | .ldINnn _
  | .rndVxNn _ _ | .drwVxVyN _ _ _ | .ldVxDt _ | .ldDtVx _ | .ldStVx _ | .addIVx _ | .ldFVx _
  | .ldBVx _ | .ldMemVx _ | .ldVxMem _ => .advance

/-- The registers an instruction names as its destination (the operand written, R31). -/
def Instr.isDestination : Instr → RegId → Bool
  | .ldVxNn x _, z | .addVxNn x _, z | .ldVxVy x _, z | .orVxVy x _, z | .andVxVy x _, z
  | .xorVxVy x _, z | .addVxVy x _, z | .subVxVy x _, z | .shrVxVy x _, z | .subnVxVy x _, z
  | .shlVxVy x _, z | .rndVxNn x _, z | .ldVxDt x, z | .ldVxK x, z => z == x
  | .ldVxMem x, z => decide (z.toNat ≤ x.toNat)
  | .cls, _ | .ret, _ | .jpNnn _, _ | .callNnn _, _ | .seVxNn _ _, _ | .sneVxNn _ _, _
  | .seVxVy _ _, _ | .sneVxVy _ _, _ | .ldINnn _, _ | .jpV0Nnn _, _ | .drwVxVyN _ _ _, _
  | .skpVx _, _ | .sknpVx _, _ | .ldDtVx _, _ | .ldStVx _, _ | .addIVx _, _ | .ldFVx _, _
  | .ldBVx _, _ | .ldMemVx _, _ => false

/-- The instructions that write VF as a side effect, under the given quirks (R32). -/
def Instr.writesFlag (q : Quirks) : Instr → Bool
  | .orVxVy _ _ | .andVxVy _ _ | .xorVxVy _ _ => q.vfReset
  | .addVxVy _ _ | .subVxVy _ _ | .subnVxVy _ _ | .shrVxVy _ _ | .shlVxVy _ _ | .drwVxVyN _ _ _ => true
  | .cls | .ret | .jpNnn _ | .callNnn _ | .seVxNn _ _ | .sneVxNn _ _ | .seVxVy _ _ | .sneVxVy _ _
  | .ldVxNn _ _ | .addVxNn _ _ | .ldVxVy _ _ | .ldINnn _ | .jpV0Nnn _ | .rndVxNn _ _ | .skpVx _
  | .sknpVx _ | .ldVxDt _ | .ldVxK _ | .ldDtVx _ | .ldStVx _ | .addIVx _ | .ldFVx _ | .ldBVx _
  | .ldMemVx _ | .ldVxMem _ => false

/-- The one fatal cause an instruction can raise, if any (R308). -/
def Instr.mayRaise : Instr → Option Cause
  | .callNnn _ => some .stackOverflow
  | .ret => some .stackUnderflow
  | .drwVxVyN _ _ _ | .ldBVx _ | .ldMemVx _ | .ldVxMem _ => some .memoryOutOfRange
  | .skpVx _ | .sknpVx _ => some .keyIndexOutOfRange
  | .cls | .jpNnn _ | .seVxNn _ _ | .sneVxNn _ _ | .seVxVy _ _ | .sneVxVy _ _
  | .ldVxNn _ _ | .addVxNn _ _ | .ldVxVy _ _ | .orVxVy _ _ | .andVxVy _ _ | .xorVxVy _ _
  | .addVxVy _ _ | .subVxVy _ _ | .shrVxVy _ _ | .subnVxVy _ _ | .shlVxVy _ _ | .ldINnn _
  | .jpV0Nnn _ | .rndVxNn _ _ | .ldVxDt _ | .ldVxK _ | .ldDtVx _ | .ldStVx _ | .addIVx _
  | .ldFVx _ => none

end Sys2Proof

namespace Sys2Proof.Machine

/-! ### Sprites -/

/-- A drawn 1 bit of the sprite DXYN draws from state s lands on the pixel (R210, R211): row r and column
c of the n bytes at I, from the origin `(V[x] mod 64, V[y] mod 32)`, wrapped (R213), and in clip mode
only where it does not pass the right or bottom edge (R214). -/
def spriteCovers (s : State) (x y : RegId) (n : BitVec 4) (px : Fin 64) (py : Fin 32) : Prop :=
  ∃ r c : Nat, r < n.toNat ∧ c < 8 ∧
    (s.byteAt (s.i.toNat + r)).getLsbD (7 - c) = true ∧
    px.val = ((s.readV x).toNat % 64 + c) % 64 ∧
    py.val = ((s.readV y).toNat % 32 + r) % 32 ∧
    (s.params.quirks.drawClip = true →
      (s.readV x).toNat % 64 + c < 64 ∧ (s.readV y).toNat % 32 + r < 32)

/-! ### Safe runs and the invariant -/

/-- The engine has not halted (R44). -/
abbrev State.Running (s : State) : Prop := s.halt = .running

/-- A diagnostic event that can have been logged: an unrecognised word at a PC it was fetched from. -/
abbrev DiagEvent.Genuine : DiagEvent → Prop
  | .unknownOpcode pc w => pc.toNat ≤ 0xFFE ∧ decode w = .unknown w

/-- What holds of every engine from its construction on. -/
structure State.Inv (s : State) : Prop where
  /-- memory is in canonical form, inside 0x000 to 0xFFF (R60) -/
  memory : Memory.wf s.params s.mem
  /-- SP is 0 to 16 (R35) -/
  stackPointer : s.sp.toNat ≤ 16
  /-- the construction arguments are legal (R11) -/
  arguments : s.params.WellFormed
  /-- no tick is overdue (R321) -/
  clock : s.sinceTick < Config.tickPeriod
  /-- only a Run moves the tick clock (R321, R45) -/
  clockRan : s.ran = false → s.sinceTick = 0
  /-- only unrecognised words are in the diagnostic output (R314) -/
  diagnostics : ∀ e ∈ s.diag, e.Genuine
  /-- the loader's error is raised before the start and before `loaded` is set (R331) -/
  loadError : s.halt = .fatal .programTooLarge → s.started = false ∧ s.loaded = false
  /-- every other error is raised by a step, which has set `started` (R316) -/
  stepError : ∀ c, s.halt = .fatal c → c ≠ .programTooLarge → s.started = true
  /-- StackOverflow leaves SP at 16 (R302) -/
  overflow : s.halt = .fatal .stackOverflow → s.sp = 16
  /-- StackUnderflow leaves SP at 0 (R303) -/
  underflow : s.halt = .fatal .stackUnderflow → s.sp = 0
  /-- FetchOutOfRange leaves PC at the unfetchable address (R305) -/
  fetchError : s.halt = .fatal .fetchOutOfRange → 0xFFE < s.pc.toNat

end Sys2Proof.Machine
end

