-- ==== Sys2Proof/Certificates/Slice0/Obligations.lean ====
section
/-! DEFINITION. The statements for the provers. A docstring names the rule a statement formalises, and
the spec's own decision D<n> (spec/92_eei_decisions.md) or the log entry it rests on, where it does. -/

open Sys2Proof Sys2Proof.Machine

namespace Sys2Proof.Claims

/-- The instruction raises a fatal error: HALT is set to the cause and nothing else changes. -/
def HaltsWith (c : Cause) (i : Instr) (s : State) : Prop :=
  ∃ t, exec i s = .next t ∧ t.halt = .fatal c ∧ SameExcept (fun p => p = .halt) s t

/-- Class `advance` with a result in one register and nothing else changed. -/
def WritesRegister (i : Instr) (x : RegId) (r : Byte) (s : State) : Prop :=
  ∃ t, exec i s = .next t ∧ t.readV x = r ∧ Advances s t ∧
    SameExcept (fun p => p = .pc ∨ p = .reg x) s t

/-- Class `advance` with a result in `V[x]` and a flag in VF, the flag written last. -/
def WritesRegisterAndFlag (i : Instr) (x : RegId) (r f : Nat) (s : State) : Prop :=
  ∃ t, exec i s = .next t ∧ (x ≠ VF → (t.readV x).toNat = r) ∧ (t.readV VF).toNat = f ∧ Advances s t ∧
    SameExcept (fun p => p = .pc ∨ p = .reg x ∨ p = .reg VF) s t

/-- A bitwise result: VF is cleared last under `vf_reset`, and is an ordinary register without it. -/
def WritesBitwise (i : Instr) (x : RegId) (r : Byte) (s : State) : Prop :=
  ∃ t, exec i s = .next t ∧ (x ≠ VF → t.readV x = r) ∧
    (s.params.quirks.vfReset = true → t.readV VF = 0) ∧
    (s.params.quirks.vfReset = false → x = VF → t.readV VF = r) ∧ Advances s t ∧
    SameExcept (fun p => p = .pc ∨ p = .reg x ∨ (p = .reg VF ∧ s.params.quirks.vfReset = true)) s t

/-- A conditional skip: PC moves by 4 if the predicate holds, else by 2, and nothing else changes. -/
def SkipsWhen (c : Prop) (i : Instr) (s : State) : Prop :=
  ∃ t, exec i s = .next t ∧ (c → SkipsNext s t) ∧ (¬ c → Advances s t) ∧
    SameExcept (fun p => p = .pc) s t

/-- The value a shift works on (R110, R111). -/
def shifted (x y : RegId) (s : State) : Nat :=
  if s.params.quirks.shiftVy = true then (s.readV y).toNat else (s.readV x).toNat

end Sys2Proof.Claims

open Sys2Proof.Claims

/-! ### Reset -/

/-- Construction (R48, R350): every register, the stack, the timers and the pixels are zero, PC is 0x200,
the keys are released (D29), HALT is RUNNING, nothing is started, run, loaded or logged, the font is at
FONT_BASE and every other byte is 0. `draws` (log 5) and `ran` (log 16) are the model's own. -/
def Obligations.ConstructionGivesResetValues : Prop :=
  ∀ p : Params, ∃ s, s = State.construct p ∧
    (∀ x, s.readV x = 0) ∧ s.i = 0 ∧ s.pc = 0x200 ∧ s.sp = 0 ∧ (∀ k : Fin 16, s.stack[k.val] = 0) ∧
    s.dt = 0 ∧ s.st = 0 ∧ (∀ k, s.keyDown k = false) ∧ (∀ x y, s.pix.pixel x y = false) ∧
    s.halt = .running ∧ s.started = false ∧ s.loaded = false ∧ s.ran = false ∧ s.sinceTick = 0 ∧
    s.diag = [] ∧
    s.draws = 0 ∧ s.params = p ∧
    (∀ (d : Fin 16) (r : Fin 5),
      s.byteAt (p.fontBase.toNat + 5 * d.val + r.val) = p.fontGlyphs[d.val][r.val]) ∧
    (∀ a, (a < p.fontBase.toNat ∨ p.fontBase.toNat + 80 ≤ a) → s.byteAt a = 0)

/-- The invariant holds of every engine constructed with legal arguments, the reset state among them. -/
def Obligations.InvariantHoldsAtConstruction : Prop :=
  (∀ p : Params, p.WellFormed → (State.construct p).Inv) ∧ State.reset.Inv

/-! ### Encoding, decoding and the step -/

/-- Words written out from the encodings of the instruction rules (R85, D1) decode to their instructions,
and a word with a wrong fixed nibble does not decode (R87, D2). -/
def Obligations.WrittenWordsDecode : Prop :=
  decode 0b0110101001000010 = .instr (.ldVxNn 0xA 0x42) ∧
  decode 0b1000010100110101 = .instr (.subVxVy 0x5 0x3) ∧
  decode 0b0010001000010000 = .instr (.callNnn 0x210) ∧
  decode 0b0000000011101110 = .instr .ret ∧
  decode 0b1101000100100101 = .instr (.drwVxVyN 0x1 0x2 0x5) ∧
  decode 0b1110010110011110 = .instr (.skpVx 0x5) ∧
  decode 0b1111101000110011 = .instr (.ldBVx 0xA) ∧
  decode 0b0101000100100001 = .unknown 0x5121

/-- Decode and encode agree for every instruction with every operand: no bit of an encoding is dropped
(R85, D1). -/
def Obligations.DecodeOfEncode : Prop :=
  ∀ i : Instr, decode (encode i) = .instr i

/-- Each instruction has one word: there are no don't-care bits (R88; the encodings are D1). -/
def Obligations.EncodeOfDecode : Prop :=
  ∀ (w : Word) (i : Instr), decode w = .instr i → encode i = w

/-- The unrecognised words are exactly those of R87 (decoding is strict, D2). -/
def Obligations.UnrecognisedWordsExactly : Prop :=
  ∀ w : Word, decode w = .unknown w ↔
    (w.toNat / 4096 = 0x0 ∧ w ≠ 0x00E0 ∧ w ≠ 0x00EE) ∨
    ((w.toNat / 4096 = 0x5 ∨ w.toNat / 4096 = 0x9) ∧ w.toNat % 16 ≠ 0) ∨
    (w.toNat / 4096 = 0x8 ∧ w.toNat % 16 ∈ [0x8, 0x9, 0xA, 0xB, 0xC, 0xD, 0xF]) ∨
    (w.toNat / 4096 = 0xE ∧ w.toNat % 256 ∉ [0x9E, 0xA1]) ∨
    (w.toNat / 4096 = 0xF ∧
      w.toNat % 256 ∉ [0x07, 0x0A, 0x15, 0x18, 0x1E, 0x29, 0x33, 0x55, 0x65])

/-- A step on a running engine executes the instruction of the big-endian word at PC, on the state with
`started` set, PC still at the instruction (R80, R82, R316). -/
def Obligations.StepRunsTheDecodedInstruction : Prop :=
  ∀ (s : State) (i : Instr), s.halt = .running → s.pc.toNat ≤ 0xFFE →
    decode (s.byteAt s.pc.toNat ++ s.byteAt (s.pc.toNat + 1)) = .instr i →
    step s = exec i { s with started := true }

/-- A word stored at PC is the one the very next step fetches and runs (R72; the placing is log 10): the
premise is the canonical form of memory, which the invariant holds. -/
def Obligations.PlacedWordRunsNext : Prop :=
  ∀ (s : State) (w : Word) (i : Instr), Memory.wf s.params s.mem → decode w = .instr i →
    step (s.withFetchWord 16 w.toNat) =
      exec i { s.withFetchWord 16 w.toNat with started := true }

/-- An unrecognised word at PC is logged with its PC and skipped over, and nothing else changes (R149;
what is unrecognised and what is logged are D2 and D27). -/
def Obligations.UnknownWordIsLoggedAndAdvances : Prop :=
  ∀ (s : State) (u : Word), s.halt = .running → s.pc.toNat ≤ 0xFFE →
    decode (s.byteAt s.pc.toNat ++ s.byteAt (s.pc.toNat + 1)) = .unknown u →
    ∃ t, step s = .next t ∧ t.diag = s.diag ++ [.unknownOpcode s.pc u] ∧ Advances s t ∧
      t.started = true ∧ SameExcept (fun p => p = .pc ∨ p = .diag ∨ p = .started) s t

/-- A fetch with PC above 0xFFE halts with FetchOutOfRange, and only HALT and `started` change (R305,
R316; the range is D11, the effect of a fatal error D7). -/
def Obligations.FetchPastTheEndHalts : Prop :=
  ∀ s : State, s.halt = .running → 0xFFE < s.pc.toNat →
    ∃ t, step s = .next t ∧ t.halt = .fatal .fetchOutOfRange ∧ t.started = true ∧
      SameExcept (fun p => p = .halt ∨ p = .started) s t

/-- A halted engine does nothing on a Step or a Tick, refuses Load and still accepts SetKey (R307, D8). -/
def Obligations.HaltedEngineStaysHalted : Prop :=
  ∀ s : State, s.halt ≠ .running →
    step s = .next s ∧ tick s = .next s ∧
    (∀ bytes, hostLoad bytes s = .refused .loadNotAdmitted) ∧
    (∀ (k : Fin 16) (b : Bool), ∃ t, hostSetKey k.val b s = .next t ∧ t.keyDown k = b ∧
      SameExcept (fun p => p = .key k) s t)

/-! ### Register and ALU instructions -/

/-- R101, R103: `V[x] <- nn` and `V[x] <- V[y]`, no flag. -/
def Obligations.LoadsWriteOneRegister : Prop :=
  ∀ (x y : RegId) (nn : Byte) (s : State),
    WritesRegister (.ldVxNn x nn) x nn s ∧ WritesRegister (.ldVxVy x y) x (s.readV y) s

/-- R102: the sum modulo 256, and VF is written only as the named destination. -/
def Obligations.AddImmediateWrapsWithoutFlag : Prop :=
  ∀ (x : RegId) (nn : Byte) (s : State), ∃ t, exec (.addVxNn x nn) s = .next t ∧
    (t.readV x).toNat = ((s.readV x).toNat + nn.toNat) % 256 ∧ Advances s t ∧
    SameExcept (fun p => p = .pc ∨ p = .reg x) s t

/-- R104, R105, R106: the bitwise result, and VF cleared after it under `vf_reset`, unchanged without. -/
def Obligations.BitwiseClearsFlagOnlyWhenLegacy : Prop :=
  ∀ (x y : RegId) (s : State),
    WritesBitwise (.orVxVy x y) x (s.readV x ||| s.readV y) s ∧
    WritesBitwise (.andVxVy x y) x (s.readV x &&& s.readV y) s ∧
    WritesBitwise (.xorVxVy x y) x (s.readV x ^^^ s.readV y) s

/-- R107: the sum modulo 256, then VF 1 exactly when it is above 255. -/
def Obligations.AddSetsCarry : Prop :=
  ∀ (x y : RegId) (s : State), WritesRegisterAndFlag (.addVxVy x y) x
    (((s.readV x).toNat + (s.readV y).toNat) % 256)
    (if 255 < (s.readV x).toNat + (s.readV y).toNat then 1 else 0) s

/-- R108: the difference modulo 256, then VF 1 exactly when V[x] ≥ V[y]. -/
def Obligations.SubSetsNoBorrow : Prop :=
  ∀ (x y : RegId) (s : State), WritesRegisterAndFlag (.subVxVy x y) x
    ((256 + (s.readV x).toNat - (s.readV y).toNat) % 256)
    (if (s.readV y).toNat ≤ (s.readV x).toNat then 1 else 0) s

/-- R109: the reverse difference, then VF 1 exactly when V[y] ≥ V[x] (the spec marks the flag's polarity
here as derived from R113). -/
def Obligations.SubnSetsNoBorrow : Prop :=
  ∀ (x y : RegId) (s : State), WritesRegisterAndFlag (.subnVxVy x y) x
    ((256 + (s.readV y).toNat - (s.readV x).toNat) % 256)
    (if (s.readV x).toNat ≤ (s.readV y).toNat then 1 else 0) s

/-- R110, R111: V[y] is shifted under `shift_vy` and V[x] without it, and VF receives the bit shifted
out. -/
def Obligations.ShiftsMoveOneBitIntoFlag : Prop :=
  ∀ (x y : RegId) (s : State),
    WritesRegisterAndFlag (.shrVxVy x y) x (shifted x y s / 2) (shifted x y s % 2) s ∧
    WritesRegisterAndFlag (.shlVxVy x y) x (shifted x y s * 2 % 256) (shifted x y s / 128) s

/-- R112: a fresh byte of the random source, masked (each execution takes one unconstrained draw, D26;
that the draw is `Config.randomByte` of the counter is log 5). -/
def Obligations.RandomDrawsAndMasks : Prop :=
  ∀ (x : RegId) (nn : Byte) (s : State), ∃ t, exec (.rndVxNn x nn) s = .next t ∧
    t.readV x = Config.randomByte s.draws &&& nn ∧ t.draws = s.draws + 1 ∧ Advances s t ∧
    SameExcept (fun p => p = .pc ∨ p = .reg x ∨ p = .draws) s t

/-! ### Control transfer -/

/-- R141, R142. -/
def Obligations.SkipsCompareRegisterWithByte : Prop :=
  ∀ (x : RegId) (nn : Byte) (s : State),
    SkipsWhen (s.readV x = nn) (.seVxNn x nn) s ∧ SkipsWhen (s.readV x ≠ nn) (.sneVxNn x nn) s

/-- R143, R144. -/
def Obligations.SkipsCompareTwoRegisters : Prop :=
  ∀ (x y : RegId) (s : State),
    SkipsWhen (s.readV x = s.readV y) (.seVxVy x y) s ∧
    SkipsWhen (s.readV x ≠ s.readV y) (.sneVxVy x y) s

/-- R145: `pc <- zext_16(nnn)`. -/
def Obligations.JumpSetsPc : Prop :=
  ∀ (nnn : Addr) (s : State), ∃ t, exec (.jpNnn nnn) s = .next t ∧ t.pc.toNat = nnn.toNat ∧
    SameExcept (fun p => p = .pc) s t

/-- R146: `nnn + V[0]`, not reduced to 12 bits (D35). -/
def Obligations.RelativeJumpAddsV0 : Prop :=
  ∀ (nnn : Addr) (s : State), ∃ t, exec (.jpV0Nnn nnn) s = .next t ∧
    t.pc.toNat = nnn.toNat + (s.readV 0).toNat ∧ SameExcept (fun p => p = .pc) s t

/-- R147: with room on the stack, CALL pushes the address after it (D5) in `stack[SP]` (D6), counts SP up
and jumps. -/
def Obligations.CallPushesReturnAddress : Prop :=
  ∀ (nnn : Addr) (k : Fin 16) (s : State), s.sp.toNat = k.val →
    ∃ t, exec (.callNnn nnn) s = .next t ∧ t.stack[k.val].toNat = (s.pc.toNat + 2) % 2 ^ 16 ∧
      t.sp.toNat = k.val + 1 ∧ t.pc.toNat = nnn.toNat ∧
      SameExcept (fun p => p = .pc ∨ p = .sp ∨ p = .stackSlot k) s t

/-- R148: with an entry on the stack, RET counts SP down and sets PC to the entry, which stays; with none it
raises StackUnderflow. -/
def Obligations.ReturnPopsAddress : Prop :=
  ∀ s : State,
    (∀ k : Fin 16, s.sp.toNat = k.val + 1 →
      ∃ t, exec .ret s = .next t ∧ t.sp.toNat = k.val ∧ t.pc = s.stack[k.val] ∧
        SameExcept (fun p => p = .pc ∨ p = .sp) s t) ∧
    (s.sp = 0 → HaltsWith .stackUnderflow .ret s)

/-- R302, R303: CALL at SP = 16 raises StackOverflow and RET at SP = 0 StackUnderflow, PC at the
instruction. -/
def Obligations.StackOverflowAndUnderflowHalt : Prop :=
  ∀ (nnn : Addr) (s : State),
    (s.sp = 16 → HaltsWith .stackOverflow (.callNnn nnn) s) ∧
    (s.sp = 0 → HaltsWith .stackUnderflow .ret s)

/-- SP above 16, which R35 calls unreachable: the model's own choice is to stop by name (log 7). -/
def Obligations.IllegalStackPointerStops : Prop :=
  ∀ s : State, 16 < s.sp.toNat →
    (∀ nnn, exec (.callNnn nnn) s = .fault .stackPointerIllegal) ∧
    exec .ret s = .fault .stackPointerIllegal

/-- A call and then a return resume at the instruction after the call, with the stack pointer as before
(R147 as read by D5, R148). -/
def Obligations.CallThenReturnResumes : Prop :=
  ∀ (nnn : Addr) (s : State), s.sp.toNat < 16 →
    ∃ t u, exec (.callNnn nnn) s = .next t ∧ exec .ret t = .next u ∧ Advances s u ∧
      SameExcept (fun p => p = .pc ∨ ∃ k : Fin 16, p = .stackSlot k ∧ k.val = s.sp.toNat) s u

/-! ### Address register and memory transfer -/

/-- R181: `I <- zext_16(nnn)`. -/
def Obligations.LoadAddressRegister : Prop :=
  ∀ (nnn : Addr) (s : State), ∃ t, exec (.ldINnn nnn) s = .next t ∧ t.i.toNat = nnn.toNat ∧
    Advances s t ∧ SameExcept (fun p => p = .pc ∨ p = .i) s t

/-- R182: the sum modulo 2^16, and no flag (D13). -/
def Obligations.AddToAddressRegister : Prop :=
  ∀ (x : RegId) (s : State), ∃ t, exec (.addIVx x) s = .next t ∧
    t.i.toNat = (s.i.toNat + (s.readV x).toNat) % 2 ^ 16 ∧ Advances s t ∧
    SameExcept (fun p => p = .pc ∨ p = .i) s t

/-- R183: I at the glyph of the low nibble (D14), for every FONT_BASE. -/
def Obligations.GlyphAddressOfDigit : Prop :=
  ∀ (x : RegId) (s : State), ∃ t, exec (.ldFVx x) s = .next t ∧
    t.i.toNat = s.params.fontBase.toNat + 5 * ((s.readV x).toNat % 16) ∧ Advances s t ∧
    SameExcept (fun p => p = .pc ∨ p = .i) s t

/-- R184: the hundreds, tens and ones digits at I, I + 1 and I + 2 (order D15), no other byte changed. -/
def Obligations.BcdStoresThreeDigits : Prop :=
  ∀ (x : RegId) (s : State), Memory.wf s.params s.mem → s.i.toNat + 2 ≤ 0xFFF →
    ∃ t, exec (.ldBVx x) s = .next t ∧
      (t.byteAt s.i.toNat).toNat = (s.readV x).toNat / 100 ∧
      (t.byteAt (s.i.toNat + 1)).toNat = (s.readV x).toNat / 10 % 10 ∧
      (t.byteAt (s.i.toNat + 2)).toNat = (s.readV x).toNat % 10 ∧ Advances s t ∧
      SameExcept (fun p => p = .pc ∨ ∃ a, p = .memByte a ∧ s.i.toNat ≤ a ∧ a ≤ s.i.toNat + 2) s t

/-- R185: V[0] to V[x] at I to I + x, no other byte changed, and I moved on only under `mem_inc_i`; a range
past 0xFFF raises MemoryOutOfRange. -/
def Obligations.StoreBlockWritesRegisters : Prop :=
  ∀ (x : RegId) (s : State), Memory.wf s.params s.mem →
    (s.i.toNat + x.toNat ≤ 0xFFF →
      ∃ t, exec (.ldMemVx x) s = .next t ∧
        (∀ z : RegId, z.toNat ≤ x.toNat → t.byteAt (s.i.toNat + z.toNat) = s.readV z) ∧
        (s.params.quirks.memIncI = true → t.i.toNat = (s.i.toNat + x.toNat + 1) % 2 ^ 16) ∧
        Advances s t ∧
        SameExcept (fun p => p = .pc ∨ (p = .i ∧ s.params.quirks.memIncI = true) ∨
          ∃ a, p = .memByte a ∧ s.i.toNat ≤ a ∧ a ≤ s.i.toNat + x.toNat) s t) ∧
    (0xFFF < s.i.toNat + x.toNat → HaltsWith .memoryOutOfRange (.ldMemVx x) s)

/-- R186: the bytes at I to I + x in V[0] to V[x], memory unchanged, and I moved on only under
`mem_inc_i`; a range past 0xFFF raises MemoryOutOfRange. -/
def Obligations.LoadBlockReadsRegisters : Prop :=
  ∀ (x : RegId) (s : State),
    (s.i.toNat + x.toNat ≤ 0xFFF →
      ∃ t, exec (.ldVxMem x) s = .next t ∧
        (∀ z : RegId, z.toNat ≤ x.toNat → t.readV z = s.byteAt (s.i.toNat + z.toNat)) ∧
        (s.params.quirks.memIncI = true → t.i.toNat = (s.i.toNat + x.toNat + 1) % 2 ^ 16) ∧
        Advances s t ∧
        SameExcept (fun p => p = .pc ∨ (p = .i ∧ s.params.quirks.memIncI = true) ∨
          ∃ z : RegId, p = .reg z ∧ z.toNat ≤ x.toNat) s t) ∧
    (0xFFF < s.i.toNat + x.toNat → HaltsWith .memoryOutOfRange (.ldVxMem x) s)

/-- Every data access that passes 0xFFF raises MemoryOutOfRange before any byte moves (R63, D10; effect
D7): FX33, FX55, FX65, and DXYN with n > 0. -/
def Obligations.AccessPastTheEndHalts : Prop :=
  ∀ (x y : RegId) (n : BitVec 4) (s : State),
    (0xFFF < s.i.toNat + 2 → HaltsWith .memoryOutOfRange (.ldBVx x) s) ∧
    (0xFFF < s.i.toNat + x.toNat → HaltsWith .memoryOutOfRange (.ldMemVx x) s) ∧
    (0xFFF < s.i.toNat + x.toNat → HaltsWith .memoryOutOfRange (.ldVxMem x) s) ∧
    (n ≠ 0 → 0x1000 < s.i.toNat + n.toNat → HaltsWith .memoryOutOfRange (.drwVxVyN x y n) s)

/-- What FX55 stores, FX65 loads back: from any later state with the same memory and the same I the
registers stored are restored (R185, R186). -/
def Obligations.StoreThenLoadRestoresRegisters : Prop :=
  ∀ (x : RegId) (s : State), Memory.wf s.params s.mem → s.i.toNat + x.toNat ≤ 0xFFF →
    ∃ t, exec (.ldMemVx x) s = .next t ∧
      ∀ u : State, u.mem = t.mem → u.params = t.params → u.i = s.i →
        ∃ w, exec (.ldVxMem x) u = .next w ∧
          ∀ z : RegId, z.toNat ≤ x.toNat → w.readV z = s.readV z

/-- Stored bytes are fetched as stored, with no fence between: a later state with the stored memory runs
the word made of two neighbouring stored registers (R72, D32). -/
def Obligations.StoredBytesAreFetched : Prop :=
  ∀ (x z : RegId) (s : State), Memory.wf s.params s.mem → s.i.toNat + x.toNat ≤ 0xFFF →
    z.toNat + 1 ≤ x.toNat →
    ∃ t, exec (.ldMemVx x) s = .next t ∧
      ∀ (u : State) (i : Instr), u.mem = t.mem → u.params = t.params → u.halt = .running →
        u.pc.toNat = s.i.toNat + z.toNat → decode (s.readV z ++ s.readV (z + 1)) = .instr i →
        step u = exec i { u with started := true }

/-! ### Display -/

/-- R212: every pixel 0, VF unchanged. -/
def Obligations.ClearScreenClearsEveryPixel : Prop :=
  ∀ s : State, ∃ t, exec .cls s = .next t ∧ (∀ x y, t.pix.pixel x y = false) ∧ Advances s t ∧
    SameExcept (fun p => p = .pc ∨ ∃ x y, p = .pixel x y) s t

/-- DXYN with n > 0 and its bytes in range inverts exactly the pixels the sprite covers, in wrap and in
clip mode, and VF says whether one of them was set before (R211 to R215; origin D19, check D20, clip
D21). -/
def Obligations.DrawInvertsCoveredPixels : Prop :=
  ∀ (x y : RegId) (n : BitVec 4) (s : State), n ≠ 0 → s.i.toNat + n.toNat ≤ 0x1000 →
    ∃ t, exec (.drwVxVyN x y n) s = .next t ∧
      (∀ px py, spriteCovers s x y n px py → t.pix.pixel px py = !s.pix.pixel px py) ∧
      (∀ px py, ¬ spriteCovers s x y n px py → t.pix.pixel px py = s.pix.pixel px py) ∧
      ((∃ px py, spriteCovers s x y n px py ∧ s.pix.pixel px py = true) → t.readV VF = 1) ∧
      ((¬ ∃ px py, spriteCovers s x y n px py ∧ s.pix.pixel px py = true) → t.readV VF = 0) ∧
      Advances s t ∧
      SameExcept (fun p => p = .pc ∨ p = .reg VF ∨ ∃ px py, p = .pixel px py) s t

/-- DXYN with n = 0 draws nothing, reads nothing and clears VF, whatever I is (R216, D18). -/
def Obligations.DrawZeroRowsClearsFlag : Prop :=
  ∀ (x y : RegId) (s : State), ∃ t, exec (.drwVxVyN x y 0) s = .next t ∧ t.readV VF = 0 ∧
    Advances s t ∧ SameExcept (fun p => p = .pc ∨ p = .reg VF) s t

/-- Drawing is its own inverse (R217): the same sprite drawn twice at the same origin leaves the pixel
buffer as it was, for every n. VF after the second draw says whether that draw collided with the first
draw's result, so it is 1 exactly when a covered pixel was unset before the first (R215). R217's last
clause, that VF is 1 when a bit is drawn, holds when the first draw did not collide (why only then is
log 15). -/
def Obligations.DrawTwiceRestoresPixels : Prop :=
  ∀ (x y : RegId) (n : BitVec 4) (s : State), x ≠ VF → y ≠ VF →
    (n ≠ 0 → s.i.toNat + n.toNat ≤ 0x1000) →
    ∃ t u, exec (.drwVxVyN x y n) s = .next t ∧ exec (.drwVxVyN x y n) t = .next u ∧
      (∀ px py, u.pix.pixel px py = s.pix.pixel px py) ∧
      (u.readV VF = 1 ↔ ∃ px py, spriteCovers s x y n px py ∧ t.pix.pixel px py = true) ∧
      ((∃ px py, spriteCovers s x y n px py ∧ s.pix.pixel px py = false) → u.readV VF = 1) ∧
      ((¬ ∃ px py, spriteCovers s x y n px py ∧ s.pix.pixel px py = false) → u.readV VF = 0) ∧
      (t.readV VF = 0 → (∃ px py, spriteCovers s x y n px py) → u.readV VF = 1)

/-- R217's clause, marked derived there, that the second draw sets VF = 1 whenever the sprite has a drawn
1 bit. It FAILS: a sprite whose covered pixels were all set before is erased by the first draw and drawn
by the second without a collision (R211, R215; log 15). -/
def Obligations.SecondDrawAlwaysCollides : Prop :=
  ∀ (x y : RegId) (n : BitVec 4) (s t u : State), x ≠ VF → y ≠ VF →
    exec (.drwVxVyN x y n) s = .next t → exec (.drwVxVyN x y n) t = .next u →
    t.halt = .running → (∃ px py, spriteCovers s x y n px py) → u.readV VF = 1

/-! ### Keys and timers -/

/-- EX9E and EXA1 skip on the level of the key V[x] names; an index above 0xF raises KeyIndexOutOfRange
(R241, R242, R306; D16, effect D7). -/
def Obligations.KeySkipsTestOneKey : Prop :=
  ∀ (x : RegId) (s : State),
    (∀ k : Fin 16, (s.readV x).toNat = k.val →
      SkipsWhen (s.keyDown k = true) (.skpVx x) s ∧ SkipsWhen (s.keyDown k = false) (.sknpVx x) s) ∧
    (0xF < (s.readV x).toNat →
      HaltsWith .keyIndexOutOfRange (.skpVx x) s ∧ HaltsWith .keyIndexOutOfRange (.sknpVx x) s)

/-- R243, R244, R245. -/
def Obligations.TimerTransfers : Prop :=
  ∀ (x : RegId) (s : State),
    WritesRegister (.ldVxDt x) x s.dt s ∧
    (∃ t, exec (.ldDtVx x) s = .next t ∧ t.dt = s.readV x ∧ Advances s t ∧
      SameExcept (fun p => p = .pc ∨ p = .dt) s t) ∧
    (∃ t, exec (.ldStVx x) s = .next t ∧ t.st = s.readV x ∧ Advances s t ∧
      SameExcept (fun p => p = .pc ∨ p = .st) s t)

/-- FX0A records the lowest pressed key (D17) and advances; with no key pressed it changes nothing, PC
included (R246). -/
def Obligations.KeyWaitRecordsLowestKey : Prop :=
  ∀ (x : RegId) (s : State),
    (∀ k : Fin 16, s.keyDown k = true → (∀ j : Fin 16, j < k → s.keyDown j = false) →
      WritesRegister (.ldVxK x) x (BitVec.ofNat 8 k.val) s) ∧
    ((∀ k, s.keyDown k = false) → exec (.ldVxK x) s = .next s)

/-- A step is Blocked exactly when it runs FX0A with no key pressed, and then only `started` changes
(R246, R316; how the model tells a blocked step is log 14). -/
def Obligations.BlockedStepIsKeyWait : Prop :=
  ∀ s t : State, step s = .next t →
    (stepOutcome s t = .blocked ↔
      s.halt = .running ∧ s.pc.toNat ≤ 0xFFE ∧ (∀ k, s.keyDown k = false) ∧
        ∃ x, decode (s.byteAt s.pc.toNat ++ s.byteAt (s.pc.toNat + 1)) = .instr (.ldVxK x)) ∧
    (stepOutcome s t = .blocked → t = { s with started := true })

/-! ### Ticks and host operations -/

/-- R320 and R322: a tick counts both timers down, never below zero, and then runs the batch (timers
first, D23). -/
def Obligations.TickCountsDownThenRunsBatch : Prop :=
  ∀ s : State, s.halt = .running →
    ∃ t, t.dt.toNat = s.dt.toNat - 1 ∧ t.st.toNat = s.st.toNat - 1 ∧ t.started = true ∧
      SameExcept (fun p => p = .dt ∨ p = .st ∨ p = .started) s t ∧
      tick s = batch s.params.instructionsPerTick t

/-- R321: Run gathers time, and at 1/60 s does one Tick and starts again from zero (D24; the unit of time
is log 8). That a halted engine's Run moves the clock as well is log 12, and the record `ran` of
the first Run is log 16. -/
def Obligations.RunTicksAtMostOnce : Prop :=
  ∀ (elapsed : Duration) (s : State),
    (s.sinceTick + elapsed < Config.tickPeriod →
      ∃ t, hostRun elapsed s = .next t ∧ t.sinceTick = s.sinceTick + elapsed ∧ t.ran = true ∧
        SameExcept (fun p => p = .sinceTick ∨ p = .ran) s t) ∧
    (Config.tickPeriod ≤ s.sinceTick + elapsed →
      ∃ t, t.sinceTick = 0 ∧ t.ran = true ∧ SameExcept (fun p => p = .sinceTick ∨ p = .ran) s t ∧
        hostRun elapsed s = tick t)

/-- A batch that ends early on a blocked or faulting step does the same as running its whole budget of
steps (R323, which the spec marks derived). -/
def Obligations.BatchEqualsFullBudget : Prop :=
  ∀ (budget : Nat) (s : State), batch budget s = Sys2Proof.core.run budget s

/-- R331: Load copies at most 3584 bytes to 0x200 and sets `loaded`; a longer program raises
ProgramTooLarge and changes nothing else; once started, loaded or halted, or after the first Run even if
it did no tick (R339), it is refused (D28, logs 11 and 16). -/
def Obligations.LoadCopiesTheProgram : Prop :=
  ∀ (bytes : List Byte) (s : State), Memory.wf s.params s.mem →
    (s.started = false → s.ran = false → s.loaded = false → s.halt = .running →
      (bytes.length ≤ 3584 →
        ∃ t, hostLoad bytes s = .next t ∧ t.loaded = true ∧
          (∀ (k : Nat) (h : k < bytes.length), t.byteAt (0x200 + k) = bytes[k]) ∧
          SameExcept (fun p => p = .loaded ∨
            ∃ a, p = .memByte a ∧ 0x200 ≤ a ∧ a < 0x200 + bytes.length) s t) ∧
      (3584 < bytes.length →
        ∃ t, hostLoad bytes s = .next t ∧ t.halt = .fatal .programTooLarge ∧
          SameExcept (fun p => p = .halt) s t)) ∧
    (s.started = true ∨ s.ran = true ∨ s.loaded = true ∨ s.halt ≠ .running →
      hostLoad bytes s = .refused .loadNotAdmitted)

/-- R332: SetKey writes one key; an index above 15 is refused (D38, log 11). -/
def Obligations.SetKeyWritesOneKey : Prop :=
  ∀ (index : Nat) (pressed : Bool) (s : State),
    (∀ k : Fin 16, index = k.val →
      ∃ t, hostSetKey index pressed s = .next t ∧ t.keyDown k = pressed ∧
        SameExcept (fun p => p = .key k) s t) ∧
    (16 ≤ index → hostSetKey index pressed s = .refused .setKeyIndexRefused)

/-! ### Whole-machine rules -/

/-- VF and every other register are written only by the instructions that name them as destination, and VF
by the flag writers R32 lists. -/
def Obligations.RegistersWrittenOnlyByTheirWriters : Prop :=
  ∀ (i : Instr) (s t : State) (z : RegId), exec i s = .next t → i.isDestination z = false →
    (z = VF → i.writesFlag s.params.quirks = false) → t.readV z = s.readV z

/-- The stack and SP are written only by CALL and RET, RET leaving the entries (R35, R36), and the timers
only by FX15 and FX18 (R320). -/
def Obligations.StackAndTimersWrittenOnlyByTheirWriters : Prop :=
  ∀ (i : Instr) (s t : State), exec i s = .next t →
    ((∀ nnn, i ≠ .callNnn nnn) → ∀ k : Fin 16, t.stack[k.val] = s.stack[k.val]) ∧
    ((∀ nnn, i ≠ .callNnn nnn) → i ≠ .ret → t.sp = s.sp) ∧
    ((∀ x, i ≠ .ldDtVx x) → t.dt = s.dt) ∧
    ((∀ x, i ≠ .ldStVx x) → t.st = s.st)

/-- Memory is written only by FX33 and FX55 (R66), the pixels only by CLS and DXYN (R40), I only by ANNN,
FX1E, FX29 and, under `mem_inc_i`, FX55 and FX65 (R33); no instruction writes the keys (R39), the
construction arguments (R42), the load flags, the tick clock or the diagnostic output. -/
def Obligations.OtherStateWrittenOnlyByItsWriters : Prop :=
  ∀ (i : Instr) (s t : State), exec i s = .next t →
    ((∀ x, i ≠ .ldBVx x) → (∀ x, i ≠ .ldMemVx x) → ∀ a, t.byteAt a = s.byteAt a) ∧
    (i ≠ .cls → (∀ x y n, i ≠ .drwVxVyN x y n) → ∀ px py, t.pix.pixel px py = s.pix.pixel px py) ∧
    ((∀ nnn, i ≠ .ldINnn nnn) → (∀ x, i ≠ .addIVx x) → (∀ x, i ≠ .ldFVx x) →
      (s.params.quirks.memIncI = true → (∀ x, i ≠ .ldMemVx x) ∧ ∀ x, i ≠ .ldVxMem x) → t.i = s.i) ∧
    (∀ k, t.keyDown k = s.keyDown k) ∧ t.params = s.params ∧ t.started = s.started ∧
    t.loaded = s.loaded ∧ t.ran = s.ran ∧ t.sinceTick = s.sinceTick ∧ t.diag = s.diag

/-- An instruction changes HALT only by raising its one cause, and then changes nothing else (R308, which
the spec marks derived; effect D7). -/
def Obligations.InstructionFaultsArePrecise : Prop :=
  ∀ (i : Instr) (s t : State), exec i s = .next t → t.halt ≠ s.halt →
    ∃ c, i.mayRaise = some c ∧ t = { s with halt := .fatal c }

/-- A step that raises a fatal error leaves every part but HALT and `started` as it was (R82, R300 by D7,
R316). -/
def Obligations.StepFaultsArePrecise : Prop :=
  ∀ s t : State, step s = .next t → s.halt = .running → t.halt ≠ .running →
    t.started = true ∧ SameExcept (fun p => p = .halt ∨ p = .started) s t

/-- The control-flow classes (R19): an instruction that does not fault moves PC as its class says; PC
arithmetic wraps (D12). -/
def Obligations.PcFollowsTheFlowClass : Prop :=
  ∀ (i : Instr) (s t : State), exec i s = .next t → s.halt = .running → t.halt = .running →
    (i.flow = .advance → Advances s t) ∧
    (i.flow = .conditionalSkip → Advances s t ∨ SkipsNext s t) ∧
    (i.flow = .blockingWait → Advances s t ∨ t = s)

/-! ### The invariant -/

/-- Every step keeps the invariant. -/
def Obligations.StepKeepsTheInvariant : Prop :=
  ∀ s t : State, s.Inv → step s = .next t → t.Inv

/-- Every operation of the host keeps the invariant: Load, SetKey, Run with its Tick and batch, Step. -/
def Obligations.HostMovesKeepTheInvariant : Prop :=
  ∀ (m : HostMove) (s t : State), s.Inv → hostMove m s = .next t → t.Inv

/-- From a state that meets the invariant no Step and no Run stops the model: every fatal error of the
spec is a next state (log 6). -/
def Obligations.StepAndRunAlwaysAnswer : Prop :=
  ∀ s : State, s.Inv →
    (∃ t, step s = .next t) ∧ ∀ elapsed, ∃ t, hostRun elapsed s = .next t
end

