-- ==== Sys2Proof/Laws/Decode.lean ====
section
/-! SUPPORT. The field extractors on packed words, and the opcode map: no word selects two rows, so a row
that is selected is the row decoded. -/

namespace Sys2Proof

section fields

variable (op x y n : BitVec 4) (nn : Byte) (nnn : Addr)

/-- Concatenation as a number: the first operand in the high bits. -/
theorem toNat_append_eq {k m : Nat} (a : BitVec k) (b : BitVec m) :
    (a ++ b).toNat = a.toNat * 2 ^ m + b.toNat := by
  rw [BitVec.toNat_append, ← Nat.shiftLeft_add_eq_or_of_lt b.isLt, Nat.shiftLeft_eq]

/-- A packed word as a number, layout XNN. -/
theorem toNat_packXNN : (packXNN op x nn).toNat = op.toNat * 4096 + x.toNat * 256 + nn.toNat := by
  have h1 := toNat_append_eq (op ++ x) nn
  have h2 := toNat_append_eq op x
  exact h1.trans (by omega)

/-- A packed word as a number, layout XYN. -/
theorem toNat_packXYN :
    (packXYN op x y n).toNat = op.toNat * 4096 + x.toNat * 256 + y.toNat * 16 + n.toNat := by
  have h1 := toNat_append_eq (op ++ x ++ y) n
  have h2 := toNat_append_eq (op ++ x) y
  have h3 := toNat_append_eq op x
  exact h1.trans (by omega)

/-- A packed word as a number, layout NNN. -/
theorem toNat_packNNN : (packNNN op nnn).toNat = op.toNat * 4096 + nnn.toNat :=
  toNat_append_eq op nnn

/-- A word of two bytes as a number (R64). -/
theorem toNat_wordOf (hi lo : Byte) : (wordOf hi lo).toNat = hi.toNat * 256 + lo.toNat :=
  toNat_append_eq hi lo

@[simp] theorem fieldX_packXNN : fieldX (packXNN op x nn) = x := by
  apply BitVec.eq_of_toNat_eq
  have := op.isLt; have := x.isLt; have := nn.isLt
  simp only [fieldX, BitVec.extractLsb'_toNat, toNat_packXNN, Nat.shiftRight_eq_div_pow]
  omega

@[simp] theorem fieldNN_packXNN : fieldNN (packXNN op x nn) = nn := by
  apply BitVec.eq_of_toNat_eq
  have := op.isLt; have := x.isLt; have := nn.isLt
  simp only [fieldNN, BitVec.extractLsb'_toNat, toNat_packXNN, Nat.shiftRight_eq_div_pow]
  omega

@[simp] theorem fieldX_packXYN : fieldX (packXYN op x y n) = x := by
  apply BitVec.eq_of_toNat_eq
  have := op.isLt; have := x.isLt; have := y.isLt; have := n.isLt
  simp only [fieldX, BitVec.extractLsb'_toNat, toNat_packXYN, Nat.shiftRight_eq_div_pow]
  omega

@[simp] theorem fieldY_packXYN : fieldY (packXYN op x y n) = y := by
  apply BitVec.eq_of_toNat_eq
  have := op.isLt; have := x.isLt; have := y.isLt; have := n.isLt
  simp only [fieldY, BitVec.extractLsb'_toNat, toNat_packXYN, Nat.shiftRight_eq_div_pow]
  omega

@[simp] theorem fieldN_packXYN : fieldN (packXYN op x y n) = n := by
  apply BitVec.eq_of_toNat_eq
  have := op.isLt; have := x.isLt; have := y.isLt; have := n.isLt
  simp only [fieldN, BitVec.extractLsb'_toNat, toNat_packXYN, Nat.shiftRight_eq_div_pow]
  omega

@[simp] theorem fieldNNN_packNNN : fieldNNN (packNNN op nnn) = nnn := by
  apply BitVec.eq_of_toNat_eq
  have := op.isLt; have := nnn.isLt
  simp only [fieldNNN, BitVec.extractLsb'_toNat, toNat_packNNN, Nat.shiftRight_eq_div_pow]
  omega

/-- All but the first nibble of a word of layout NNN masked out. -/
theorem packNNN_and_F000 : packNNN op nnn &&& 0xF000 = packNNN op 0 := by
  apply BitVec.eq_of_getLsbD_eq
  intro i hi
  interval_cases i <;> simp only [packNNN, BitVec.getLsbD_and, BitVec.getLsbD_append] <;> simp

/-- All but the first nibble of a word of layout XNN masked out. -/
theorem packXNN_and_F000 : packXNN op x nn &&& 0xF000 = packXNN op 0 0 := by
  apply BitVec.eq_of_getLsbD_eq
  intro i hi
  interval_cases i <;> simp only [packXNN, BitVec.getLsbD_and, BitVec.getLsbD_append] <;> simp

/-- The register of a word of layout X masked out. -/
theorem packXNN_and_F0FF : packXNN op x nn &&& 0xF0FF = packXNN op 0 nn := by
  apply BitVec.eq_of_getLsbD_eq
  intro i hi
  interval_cases i <;> simp only [packXNN, BitVec.getLsbD_and, BitVec.getLsbD_append] <;> simp

/-- All but the first nibble of a word of layout XYN masked out. -/
theorem packXYN_and_F000 : packXYN op x y n &&& 0xF000 = packXYN op 0 0 0 := by
  apply BitVec.eq_of_getLsbD_eq
  intro i hi
  interval_cases i <;> simp only [packXYN, BitVec.getLsbD_and, BitVec.getLsbD_append] <;> simp

/-- The registers of a word of layout XY masked out. -/
theorem packXYN_and_F00F : packXYN op x y n &&& 0xF00F = packXYN op 0 0 n := by
  apply BitVec.eq_of_getLsbD_eq
  intro i hi
  interval_cases i <;> simp only [packXYN, BitVec.getLsbD_and, BitVec.getLsbD_append] <;> simp

/-- A word is its two bytes (R64). -/
@[simp] theorem wordOf_highByte_lowByte (w : Word) : wordOf (highByte w) (lowByte w) = w := by
  apply BitVec.eq_of_toNat_eq
  have := w.isLt
  simp only [toNat_wordOf, highByte, lowByte, BitVec.extractLsb'_toNat, Nat.shiftRight_eq_div_pow]
  omega

end fields

/-- Two rows of the opcode map differ in a bit that both fix (R81). -/
theorem opcodeMap_disjoint :
    opcodeMap.Pairwise (fun r r' => (r.pattern ^^^ r'.pattern) &&& r.mask &&& r'.mask ≠ 0) := by
  decide

/-- Rows that differ in a bit both fix are not selected by one word. -/
theorem Row.not_selects_both {r r' : Row} (h : (r.pattern ^^^ r'.pattern) &&& r.mask &&& r'.mask ≠ 0)
    {w : Word} (hr : r.selects w = true) : r'.selects w = false := by
  by_contra hc
  simp only [Row.selects, beq_iff_eq, Bool.not_eq_false] at hr hc
  refine h (BitVec.eq_of_getLsbD_eq fun i hi => ?_)
  rw [← hr, ← hc]
  simp only [BitVec.getLsbD_and, BitVec.getLsbD_xor, BitVec.ofNat_eq_ofNat, BitVec.getLsbD_zero]
  cases w.getLsbD i <;> cases r.mask.getLsbD i <;> cases r'.mask.getLsbD i <;> rfl

/-- In a list of disjoint rows, a row the word selects is the one found. -/
theorem find_row {rows : List Row}
    (hd : rows.Pairwise (fun r r' => (r.pattern ^^^ r'.pattern) &&& r.mask &&& r'.mask ≠ 0))
    {r : Row} (hr : r ∈ rows) {w : Word} (hw : r.selects w = true) :
    rows.find? (fun r => r.selects w) = some r := by
  induction rows with
  | nil => simp at hr
  | cons a rows ih =>
    obtain ⟨ha, hd⟩ := List.pairwise_cons.1 hd
    rcases List.mem_cons.1 hr with rfl | hr
    · simp [hw]
    · have hna : a.selects w = false := by
        by_contra hc
        have := Row.not_selects_both (ha r hr) (Bool.not_eq_false _ ▸ hc)
        simp [this] at hw
      simpa [hna] using ih hd hr

/-- Decoding a word that selects a row of the opcode map reads that row's instruction (R81). -/
theorem decode_of_row {r : Row} (hr : r ∈ opcodeMap) {w : Word} (hw : r.selects w = true) :
    decode w = .instr (r.build w) := by
  simp [decode, find_row opcodeMap_disjoint hr hw]

/-- A word is unrecognised exactly when it selects no row, and is named as itself (R87). -/
theorem decode_eq_unknown_iff {w u : Word} :
    decode w = .unknown u ↔ u = w ∧ ∀ r ∈ opcodeMap, r.selects w = false := by
  unfold decode
  split
  · next r h =>
    have h1 := List.mem_of_find?_eq_some h
    have h2 := List.find?_some (p := fun r : Row => r.selects w) h
    constructor
    · intro hc; cases hc
    · rintro ⟨-, h3⟩
      rw [h3 r h1] at h2; cases h2
  · next h =>
    rw [List.find?_eq_none] at h
    simp only [Decoded.unknown.injEq]
    constructor
    · rintro rfl; exact ⟨rfl, fun r hr => by simpa using h r hr⟩
    · rintro ⟨rfl, -⟩; rfl

/-- An instruction is decoded from a row the word selects. -/
theorem row_of_decode {w : Word} {i : Instr} (h : decode w = .instr i) :
    ∃ r ∈ opcodeMap, r.selects w = true ∧ i = r.build w := by
  unfold decode at h
  split at h
  · next r hr =>
    cases h
    exact ⟨r, List.mem_of_find?_eq_some hr,
      List.find?_some (p := fun r : Row => r.selects w) hr, rfl⟩
  · cases h

end Sys2Proof
end

