-- ==== Sys2Proof/Laws/State.lean ====
section
/-! SUPPORT. What each field of the state is after each update of it: one lemma per field per update. -/

namespace Sys2Proof.Machine

variable (s : State)

/-! ### writeV -/
@[simp] theorem State.writeV_v (x : RegId) (b : Byte) : (s.writeV x b).v = s.v.set x.toNat b x.isLt := rfl
@[simp] theorem State.writeV_i (x : RegId) (b : Byte) : (s.writeV x b).i = s.i := rfl
@[simp] theorem State.writeV_pc (x : RegId) (b : Byte) : (s.writeV x b).pc = s.pc := rfl
@[simp] theorem State.writeV_sp (x : RegId) (b : Byte) : (s.writeV x b).sp = s.sp := rfl
@[simp] theorem State.writeV_stack (x : RegId) (b : Byte) : (s.writeV x b).stack = s.stack := rfl
@[simp] theorem State.writeV_dt (x : RegId) (b : Byte) : (s.writeV x b).dt = s.dt := rfl
@[simp] theorem State.writeV_st (x : RegId) (b : Byte) : (s.writeV x b).st = s.st := rfl
@[simp] theorem State.writeV_key (x : RegId) (b : Byte) : (s.writeV x b).key = s.key := rfl
@[simp] theorem State.writeV_pix (x : RegId) (b : Byte) : (s.writeV x b).pix = s.pix := rfl
@[simp] theorem State.writeV_mem (x : RegId) (b : Byte) : (s.writeV x b).mem = s.mem := rfl
@[simp] theorem State.writeV_params (x : RegId) (b : Byte) : (s.writeV x b).params = s.params := rfl
@[simp] theorem State.writeV_started (x : RegId) (b : Byte) : (s.writeV x b).started = s.started := rfl
@[simp] theorem State.writeV_loaded (x : RegId) (b : Byte) : (s.writeV x b).loaded = s.loaded := rfl
@[simp] theorem State.writeV_ran (x : RegId) (b : Byte) : (s.writeV x b).ran = s.ran := rfl
@[simp] theorem State.writeV_halt (x : RegId) (b : Byte) : (s.writeV x b).halt = s.halt := rfl
@[simp] theorem State.writeV_sinceTick (x : RegId) (b : Byte) : (s.writeV x b).sinceTick = s.sinceTick := rfl
@[simp] theorem State.writeV_diag (x : RegId) (b : Byte) : (s.writeV x b).diag = s.diag := rfl
@[simp] theorem State.writeV_draws (x : RegId) (b : Byte) : (s.writeV x b).draws = s.draws := rfl
@[simp] theorem State.writeV_byteAt (x : RegId) (b : Byte) (n : Nat) : (s.writeV x b).byteAt n = s.byteAt n := rfl
@[simp] theorem State.writeV_keyDown (x : RegId) (b : Byte) (j : Fin 16) : (s.writeV x b).keyDown j = s.keyDown j := rfl

/-! ### writeI -/
@[simp] theorem State.writeI_v (w : Word) : (s.writeI w).v = s.v := rfl
@[simp] theorem State.writeI_i (w : Word) : (s.writeI w).i = w := rfl
@[simp] theorem State.writeI_pc (w : Word) : (s.writeI w).pc = s.pc := rfl
@[simp] theorem State.writeI_sp (w : Word) : (s.writeI w).sp = s.sp := rfl
@[simp] theorem State.writeI_stack (w : Word) : (s.writeI w).stack = s.stack := rfl
@[simp] theorem State.writeI_dt (w : Word) : (s.writeI w).dt = s.dt := rfl
@[simp] theorem State.writeI_st (w : Word) : (s.writeI w).st = s.st := rfl
@[simp] theorem State.writeI_key (w : Word) : (s.writeI w).key = s.key := rfl
@[simp] theorem State.writeI_pix (w : Word) : (s.writeI w).pix = s.pix := rfl
@[simp] theorem State.writeI_mem (w : Word) : (s.writeI w).mem = s.mem := rfl
@[simp] theorem State.writeI_params (w : Word) : (s.writeI w).params = s.params := rfl
@[simp] theorem State.writeI_started (w : Word) : (s.writeI w).started = s.started := rfl
@[simp] theorem State.writeI_loaded (w : Word) : (s.writeI w).loaded = s.loaded := rfl
@[simp] theorem State.writeI_ran (w : Word) : (s.writeI w).ran = s.ran := rfl
@[simp] theorem State.writeI_halt (w : Word) : (s.writeI w).halt = s.halt := rfl
@[simp] theorem State.writeI_sinceTick (w : Word) : (s.writeI w).sinceTick = s.sinceTick := rfl
@[simp] theorem State.writeI_diag (w : Word) : (s.writeI w).diag = s.diag := rfl
@[simp] theorem State.writeI_draws (w : Word) : (s.writeI w).draws = s.draws := rfl
@[simp] theorem State.writeI_readV (w : Word) (z : RegId) : (s.writeI w).readV z = s.readV z := rfl
@[simp] theorem State.writeI_byteAt (w : Word) (n : Nat) : (s.writeI w).byteAt n = s.byteAt n := rfl
@[simp] theorem State.writeI_keyDown (w : Word) (j : Fin 16) : (s.writeI w).keyDown j = s.keyDown j := rfl

/-! ### writePc -/
@[simp] theorem State.writePc_v (w : Word) : (s.writePc w).v = s.v := rfl
@[simp] theorem State.writePc_i (w : Word) : (s.writePc w).i = s.i := rfl
@[simp] theorem State.writePc_pc (w : Word) : (s.writePc w).pc = w := rfl
@[simp] theorem State.writePc_sp (w : Word) : (s.writePc w).sp = s.sp := rfl
@[simp] theorem State.writePc_stack (w : Word) : (s.writePc w).stack = s.stack := rfl
@[simp] theorem State.writePc_dt (w : Word) : (s.writePc w).dt = s.dt := rfl
@[simp] theorem State.writePc_st (w : Word) : (s.writePc w).st = s.st := rfl
@[simp] theorem State.writePc_key (w : Word) : (s.writePc w).key = s.key := rfl
@[simp] theorem State.writePc_pix (w : Word) : (s.writePc w).pix = s.pix := rfl
@[simp] theorem State.writePc_mem (w : Word) : (s.writePc w).mem = s.mem := rfl
@[simp] theorem State.writePc_params (w : Word) : (s.writePc w).params = s.params := rfl
@[simp] theorem State.writePc_started (w : Word) : (s.writePc w).started = s.started := rfl
@[simp] theorem State.writePc_loaded (w : Word) : (s.writePc w).loaded = s.loaded := rfl
@[simp] theorem State.writePc_ran (w : Word) : (s.writePc w).ran = s.ran := rfl
@[simp] theorem State.writePc_halt (w : Word) : (s.writePc w).halt = s.halt := rfl
@[simp] theorem State.writePc_sinceTick (w : Word) : (s.writePc w).sinceTick = s.sinceTick := rfl
@[simp] theorem State.writePc_diag (w : Word) : (s.writePc w).diag = s.diag := rfl
@[simp] theorem State.writePc_draws (w : Word) : (s.writePc w).draws = s.draws := rfl
@[simp] theorem State.writePc_readV (w : Word) (z : RegId) : (s.writePc w).readV z = s.readV z := rfl
@[simp] theorem State.writePc_byteAt (w : Word) (n : Nat) : (s.writePc w).byteAt n = s.byteAt n := rfl
@[simp] theorem State.writePc_keyDown (w : Word) (j : Fin 16) : (s.writePc w).keyDown j = s.keyDown j := rfl

/-! ### writeDt -/
@[simp] theorem State.writeDt_v (b : Byte) : (s.writeDt b).v = s.v := rfl
@[simp] theorem State.writeDt_i (b : Byte) : (s.writeDt b).i = s.i := rfl
@[simp] theorem State.writeDt_pc (b : Byte) : (s.writeDt b).pc = s.pc := rfl
@[simp] theorem State.writeDt_sp (b : Byte) : (s.writeDt b).sp = s.sp := rfl
@[simp] theorem State.writeDt_stack (b : Byte) : (s.writeDt b).stack = s.stack := rfl
@[simp] theorem State.writeDt_dt (b : Byte) : (s.writeDt b).dt = b := rfl
@[simp] theorem State.writeDt_st (b : Byte) : (s.writeDt b).st = s.st := rfl
@[simp] theorem State.writeDt_key (b : Byte) : (s.writeDt b).key = s.key := rfl
@[simp] theorem State.writeDt_pix (b : Byte) : (s.writeDt b).pix = s.pix := rfl
@[simp] theorem State.writeDt_mem (b : Byte) : (s.writeDt b).mem = s.mem := rfl
@[simp] theorem State.writeDt_params (b : Byte) : (s.writeDt b).params = s.params := rfl
@[simp] theorem State.writeDt_started (b : Byte) : (s.writeDt b).started = s.started := rfl
@[simp] theorem State.writeDt_loaded (b : Byte) : (s.writeDt b).loaded = s.loaded := rfl
@[simp] theorem State.writeDt_ran (b : Byte) : (s.writeDt b).ran = s.ran := rfl
@[simp] theorem State.writeDt_halt (b : Byte) : (s.writeDt b).halt = s.halt := rfl
@[simp] theorem State.writeDt_sinceTick (b : Byte) : (s.writeDt b).sinceTick = s.sinceTick := rfl
@[simp] theorem State.writeDt_diag (b : Byte) : (s.writeDt b).diag = s.diag := rfl
@[simp] theorem State.writeDt_draws (b : Byte) : (s.writeDt b).draws = s.draws := rfl
@[simp] theorem State.writeDt_readV (b : Byte) (z : RegId) : (s.writeDt b).readV z = s.readV z := rfl
@[simp] theorem State.writeDt_byteAt (b : Byte) (n : Nat) : (s.writeDt b).byteAt n = s.byteAt n := rfl
@[simp] theorem State.writeDt_keyDown (b : Byte) (j : Fin 16) : (s.writeDt b).keyDown j = s.keyDown j := rfl

/-! ### writeSt -/
@[simp] theorem State.writeSt_v (b : Byte) : (s.writeSt b).v = s.v := rfl
@[simp] theorem State.writeSt_i (b : Byte) : (s.writeSt b).i = s.i := rfl
@[simp] theorem State.writeSt_pc (b : Byte) : (s.writeSt b).pc = s.pc := rfl
@[simp] theorem State.writeSt_sp (b : Byte) : (s.writeSt b).sp = s.sp := rfl
@[simp] theorem State.writeSt_stack (b : Byte) : (s.writeSt b).stack = s.stack := rfl
@[simp] theorem State.writeSt_dt (b : Byte) : (s.writeSt b).dt = s.dt := rfl
@[simp] theorem State.writeSt_st (b : Byte) : (s.writeSt b).st = b := rfl
@[simp] theorem State.writeSt_key (b : Byte) : (s.writeSt b).key = s.key := rfl
@[simp] theorem State.writeSt_pix (b : Byte) : (s.writeSt b).pix = s.pix := rfl
@[simp] theorem State.writeSt_mem (b : Byte) : (s.writeSt b).mem = s.mem := rfl
@[simp] theorem State.writeSt_params (b : Byte) : (s.writeSt b).params = s.params := rfl
@[simp] theorem State.writeSt_started (b : Byte) : (s.writeSt b).started = s.started := rfl
@[simp] theorem State.writeSt_loaded (b : Byte) : (s.writeSt b).loaded = s.loaded := rfl
@[simp] theorem State.writeSt_ran (b : Byte) : (s.writeSt b).ran = s.ran := rfl
@[simp] theorem State.writeSt_halt (b : Byte) : (s.writeSt b).halt = s.halt := rfl
@[simp] theorem State.writeSt_sinceTick (b : Byte) : (s.writeSt b).sinceTick = s.sinceTick := rfl
@[simp] theorem State.writeSt_diag (b : Byte) : (s.writeSt b).diag = s.diag := rfl
@[simp] theorem State.writeSt_draws (b : Byte) : (s.writeSt b).draws = s.draws := rfl
@[simp] theorem State.writeSt_readV (b : Byte) (z : RegId) : (s.writeSt b).readV z = s.readV z := rfl
@[simp] theorem State.writeSt_byteAt (b : Byte) (n : Nat) : (s.writeSt b).byteAt n = s.byteAt n := rfl
@[simp] theorem State.writeSt_keyDown (b : Byte) (j : Fin 16) : (s.writeSt b).keyDown j = s.keyDown j := rfl

/-! ### writePix -/
@[simp] theorem State.writePix_v (d : Display) : (s.writePix d).v = s.v := rfl
@[simp] theorem State.writePix_i (d : Display) : (s.writePix d).i = s.i := rfl
@[simp] theorem State.writePix_pc (d : Display) : (s.writePix d).pc = s.pc := rfl
@[simp] theorem State.writePix_sp (d : Display) : (s.writePix d).sp = s.sp := rfl
@[simp] theorem State.writePix_stack (d : Display) : (s.writePix d).stack = s.stack := rfl
@[simp] theorem State.writePix_dt (d : Display) : (s.writePix d).dt = s.dt := rfl
@[simp] theorem State.writePix_st (d : Display) : (s.writePix d).st = s.st := rfl
@[simp] theorem State.writePix_key (d : Display) : (s.writePix d).key = s.key := rfl
@[simp] theorem State.writePix_pix (d : Display) : (s.writePix d).pix = d := rfl
@[simp] theorem State.writePix_mem (d : Display) : (s.writePix d).mem = s.mem := rfl
@[simp] theorem State.writePix_params (d : Display) : (s.writePix d).params = s.params := rfl
@[simp] theorem State.writePix_started (d : Display) : (s.writePix d).started = s.started := rfl
@[simp] theorem State.writePix_loaded (d : Display) : (s.writePix d).loaded = s.loaded := rfl
@[simp] theorem State.writePix_ran (d : Display) : (s.writePix d).ran = s.ran := rfl
@[simp] theorem State.writePix_halt (d : Display) : (s.writePix d).halt = s.halt := rfl
@[simp] theorem State.writePix_sinceTick (d : Display) : (s.writePix d).sinceTick = s.sinceTick := rfl
@[simp] theorem State.writePix_diag (d : Display) : (s.writePix d).diag = s.diag := rfl
@[simp] theorem State.writePix_draws (d : Display) : (s.writePix d).draws = s.draws := rfl
@[simp] theorem State.writePix_readV (d : Display) (z : RegId) : (s.writePix d).readV z = s.readV z := rfl
@[simp] theorem State.writePix_byteAt (d : Display) (n : Nat) : (s.writePix d).byteAt n = s.byteAt n := rfl
@[simp] theorem State.writePix_keyDown (d : Display) (j : Fin 16) : (s.writePix d).keyDown j = s.keyDown j := rfl

/-! ### writeSp -/
@[simp] theorem State.writeSp_v (b : Byte) : (s.writeSp b).v = s.v := rfl
@[simp] theorem State.writeSp_i (b : Byte) : (s.writeSp b).i = s.i := rfl
@[simp] theorem State.writeSp_pc (b : Byte) : (s.writeSp b).pc = s.pc := rfl
@[simp] theorem State.writeSp_sp (b : Byte) : (s.writeSp b).sp = b := rfl
@[simp] theorem State.writeSp_stack (b : Byte) : (s.writeSp b).stack = s.stack := rfl
@[simp] theorem State.writeSp_dt (b : Byte) : (s.writeSp b).dt = s.dt := rfl
@[simp] theorem State.writeSp_st (b : Byte) : (s.writeSp b).st = s.st := rfl
@[simp] theorem State.writeSp_key (b : Byte) : (s.writeSp b).key = s.key := rfl
@[simp] theorem State.writeSp_pix (b : Byte) : (s.writeSp b).pix = s.pix := rfl
@[simp] theorem State.writeSp_mem (b : Byte) : (s.writeSp b).mem = s.mem := rfl
@[simp] theorem State.writeSp_params (b : Byte) : (s.writeSp b).params = s.params := rfl
@[simp] theorem State.writeSp_started (b : Byte) : (s.writeSp b).started = s.started := rfl
@[simp] theorem State.writeSp_loaded (b : Byte) : (s.writeSp b).loaded = s.loaded := rfl
@[simp] theorem State.writeSp_ran (b : Byte) : (s.writeSp b).ran = s.ran := rfl
@[simp] theorem State.writeSp_halt (b : Byte) : (s.writeSp b).halt = s.halt := rfl
@[simp] theorem State.writeSp_sinceTick (b : Byte) : (s.writeSp b).sinceTick = s.sinceTick := rfl
@[simp] theorem State.writeSp_diag (b : Byte) : (s.writeSp b).diag = s.diag := rfl
@[simp] theorem State.writeSp_draws (b : Byte) : (s.writeSp b).draws = s.draws := rfl
@[simp] theorem State.writeSp_readV (b : Byte) (z : RegId) : (s.writeSp b).readV z = s.readV z := rfl
@[simp] theorem State.writeSp_byteAt (b : Byte) (n : Nat) : (s.writeSp b).byteAt n = s.byteAt n := rfl
@[simp] theorem State.writeSp_keyDown (b : Byte) (j : Fin 16) : (s.writeSp b).keyDown j = s.keyDown j := rfl

/-! ### writeStack -/
@[simp] theorem State.writeStack_v (k : Fin 16) (w : Word) : (s.writeStack k w).v = s.v := rfl
@[simp] theorem State.writeStack_i (k : Fin 16) (w : Word) : (s.writeStack k w).i = s.i := rfl
@[simp] theorem State.writeStack_pc (k : Fin 16) (w : Word) : (s.writeStack k w).pc = s.pc := rfl
@[simp] theorem State.writeStack_sp (k : Fin 16) (w : Word) : (s.writeStack k w).sp = s.sp := rfl
@[simp] theorem State.writeStack_stack (k : Fin 16) (w : Word) : (s.writeStack k w).stack = s.stack.set k.val w k.isLt := rfl
@[simp] theorem State.writeStack_dt (k : Fin 16) (w : Word) : (s.writeStack k w).dt = s.dt := rfl
@[simp] theorem State.writeStack_st (k : Fin 16) (w : Word) : (s.writeStack k w).st = s.st := rfl
@[simp] theorem State.writeStack_key (k : Fin 16) (w : Word) : (s.writeStack k w).key = s.key := rfl
@[simp] theorem State.writeStack_pix (k : Fin 16) (w : Word) : (s.writeStack k w).pix = s.pix := rfl
@[simp] theorem State.writeStack_mem (k : Fin 16) (w : Word) : (s.writeStack k w).mem = s.mem := rfl
@[simp] theorem State.writeStack_params (k : Fin 16) (w : Word) : (s.writeStack k w).params = s.params := rfl
@[simp] theorem State.writeStack_started (k : Fin 16) (w : Word) : (s.writeStack k w).started = s.started := rfl
@[simp] theorem State.writeStack_loaded (k : Fin 16) (w : Word) : (s.writeStack k w).loaded = s.loaded := rfl
@[simp] theorem State.writeStack_ran (k : Fin 16) (w : Word) : (s.writeStack k w).ran = s.ran := rfl
@[simp] theorem State.writeStack_halt (k : Fin 16) (w : Word) : (s.writeStack k w).halt = s.halt := rfl
@[simp] theorem State.writeStack_sinceTick (k : Fin 16) (w : Word) : (s.writeStack k w).sinceTick = s.sinceTick := rfl
@[simp] theorem State.writeStack_diag (k : Fin 16) (w : Word) : (s.writeStack k w).diag = s.diag := rfl
@[simp] theorem State.writeStack_draws (k : Fin 16) (w : Word) : (s.writeStack k w).draws = s.draws := rfl
@[simp] theorem State.writeStack_readV (k : Fin 16) (w : Word) (z : RegId) : (s.writeStack k w).readV z = s.readV z := rfl
@[simp] theorem State.writeStack_byteAt (k : Fin 16) (w : Word) (n : Nat) : (s.writeStack k w).byteAt n = s.byteAt n := rfl
@[simp] theorem State.writeStack_keyDown (k : Fin 16) (w : Word) (j : Fin 16) : (s.writeStack k w).keyDown j = s.keyDown j := rfl

/-! ### writeKey -/
@[simp] theorem State.writeKey_v (k : Fin 16) (p : Bool) : (s.writeKey k p).v = s.v := rfl
@[simp] theorem State.writeKey_i (k : Fin 16) (p : Bool) : (s.writeKey k p).i = s.i := rfl
@[simp] theorem State.writeKey_pc (k : Fin 16) (p : Bool) : (s.writeKey k p).pc = s.pc := rfl
@[simp] theorem State.writeKey_sp (k : Fin 16) (p : Bool) : (s.writeKey k p).sp = s.sp := rfl
@[simp] theorem State.writeKey_stack (k : Fin 16) (p : Bool) : (s.writeKey k p).stack = s.stack := rfl
@[simp] theorem State.writeKey_dt (k : Fin 16) (p : Bool) : (s.writeKey k p).dt = s.dt := rfl
@[simp] theorem State.writeKey_st (k : Fin 16) (p : Bool) : (s.writeKey k p).st = s.st := rfl
@[simp] theorem State.writeKey_key (k : Fin 16) (p : Bool) : (s.writeKey k p).key = s.key.set k.val p k.isLt := rfl
@[simp] theorem State.writeKey_pix (k : Fin 16) (p : Bool) : (s.writeKey k p).pix = s.pix := rfl
@[simp] theorem State.writeKey_mem (k : Fin 16) (p : Bool) : (s.writeKey k p).mem = s.mem := rfl
@[simp] theorem State.writeKey_params (k : Fin 16) (p : Bool) : (s.writeKey k p).params = s.params := rfl
@[simp] theorem State.writeKey_started (k : Fin 16) (p : Bool) : (s.writeKey k p).started = s.started := rfl
@[simp] theorem State.writeKey_loaded (k : Fin 16) (p : Bool) : (s.writeKey k p).loaded = s.loaded := rfl
@[simp] theorem State.writeKey_ran (k : Fin 16) (p : Bool) : (s.writeKey k p).ran = s.ran := rfl
@[simp] theorem State.writeKey_halt (k : Fin 16) (p : Bool) : (s.writeKey k p).halt = s.halt := rfl
@[simp] theorem State.writeKey_sinceTick (k : Fin 16) (p : Bool) : (s.writeKey k p).sinceTick = s.sinceTick := rfl
@[simp] theorem State.writeKey_diag (k : Fin 16) (p : Bool) : (s.writeKey k p).diag = s.diag := rfl
@[simp] theorem State.writeKey_draws (k : Fin 16) (p : Bool) : (s.writeKey k p).draws = s.draws := rfl
@[simp] theorem State.writeKey_readV (k : Fin 16) (p : Bool) (z : RegId) : (s.writeKey k p).readV z = s.readV z := rfl
@[simp] theorem State.writeKey_byteAt (k : Fin 16) (p : Bool) (n : Nat) : (s.writeKey k p).byteAt n = s.byteAt n := rfl

/-! ### writeBytes -/
@[simp] theorem State.writeBytes_v (a : Nat) (bs : List Byte) : (s.writeBytes a bs).v = s.v := rfl
@[simp] theorem State.writeBytes_i (a : Nat) (bs : List Byte) : (s.writeBytes a bs).i = s.i := rfl
@[simp] theorem State.writeBytes_pc (a : Nat) (bs : List Byte) : (s.writeBytes a bs).pc = s.pc := rfl
@[simp] theorem State.writeBytes_sp (a : Nat) (bs : List Byte) : (s.writeBytes a bs).sp = s.sp := rfl
@[simp] theorem State.writeBytes_stack (a : Nat) (bs : List Byte) : (s.writeBytes a bs).stack = s.stack := rfl
@[simp] theorem State.writeBytes_dt (a : Nat) (bs : List Byte) : (s.writeBytes a bs).dt = s.dt := rfl
@[simp] theorem State.writeBytes_st (a : Nat) (bs : List Byte) : (s.writeBytes a bs).st = s.st := rfl
@[simp] theorem State.writeBytes_key (a : Nat) (bs : List Byte) : (s.writeBytes a bs).key = s.key := rfl
@[simp] theorem State.writeBytes_pix (a : Nat) (bs : List Byte) : (s.writeBytes a bs).pix = s.pix := rfl
@[simp] theorem State.writeBytes_mem (a : Nat) (bs : List Byte) : (s.writeBytes a bs).mem = Memory.putBytes s.params s.mem a bs := rfl
@[simp] theorem State.writeBytes_params (a : Nat) (bs : List Byte) : (s.writeBytes a bs).params = s.params := rfl
@[simp] theorem State.writeBytes_started (a : Nat) (bs : List Byte) : (s.writeBytes a bs).started = s.started := rfl
@[simp] theorem State.writeBytes_loaded (a : Nat) (bs : List Byte) : (s.writeBytes a bs).loaded = s.loaded := rfl
@[simp] theorem State.writeBytes_ran (a : Nat) (bs : List Byte) : (s.writeBytes a bs).ran = s.ran := rfl
@[simp] theorem State.writeBytes_halt (a : Nat) (bs : List Byte) : (s.writeBytes a bs).halt = s.halt := rfl
@[simp] theorem State.writeBytes_sinceTick (a : Nat) (bs : List Byte) : (s.writeBytes a bs).sinceTick = s.sinceTick := rfl
@[simp] theorem State.writeBytes_diag (a : Nat) (bs : List Byte) : (s.writeBytes a bs).diag = s.diag := rfl
@[simp] theorem State.writeBytes_draws (a : Nat) (bs : List Byte) : (s.writeBytes a bs).draws = s.draws := rfl
@[simp] theorem State.writeBytes_readV (a : Nat) (bs : List Byte) (z : RegId) : (s.writeBytes a bs).readV z = s.readV z := rfl
@[simp] theorem State.writeBytes_keyDown (a : Nat) (bs : List Byte) (j : Fin 16) : (s.writeBytes a bs).keyDown j = s.keyDown j := rfl

/-! ### logUnknown -/
@[simp] theorem State.logUnknown_v (w : Word) : (s.logUnknown w).v = s.v := rfl
@[simp] theorem State.logUnknown_i (w : Word) : (s.logUnknown w).i = s.i := rfl
@[simp] theorem State.logUnknown_pc (w : Word) : (s.logUnknown w).pc = s.pc := rfl
@[simp] theorem State.logUnknown_sp (w : Word) : (s.logUnknown w).sp = s.sp := rfl
@[simp] theorem State.logUnknown_stack (w : Word) : (s.logUnknown w).stack = s.stack := rfl
@[simp] theorem State.logUnknown_dt (w : Word) : (s.logUnknown w).dt = s.dt := rfl
@[simp] theorem State.logUnknown_st (w : Word) : (s.logUnknown w).st = s.st := rfl
@[simp] theorem State.logUnknown_key (w : Word) : (s.logUnknown w).key = s.key := rfl
@[simp] theorem State.logUnknown_pix (w : Word) : (s.logUnknown w).pix = s.pix := rfl
@[simp] theorem State.logUnknown_mem (w : Word) : (s.logUnknown w).mem = s.mem := rfl
@[simp] theorem State.logUnknown_params (w : Word) : (s.logUnknown w).params = s.params := rfl
@[simp] theorem State.logUnknown_started (w : Word) : (s.logUnknown w).started = s.started := rfl
@[simp] theorem State.logUnknown_loaded (w : Word) : (s.logUnknown w).loaded = s.loaded := rfl
@[simp] theorem State.logUnknown_ran (w : Word) : (s.logUnknown w).ran = s.ran := rfl
@[simp] theorem State.logUnknown_halt (w : Word) : (s.logUnknown w).halt = s.halt := rfl
@[simp] theorem State.logUnknown_sinceTick (w : Word) : (s.logUnknown w).sinceTick = s.sinceTick := rfl
@[simp] theorem State.logUnknown_diag (w : Word) : (s.logUnknown w).diag = s.diag ++ [.unknownOpcode s.pc w] := rfl
@[simp] theorem State.logUnknown_draws (w : Word) : (s.logUnknown w).draws = s.draws := rfl
@[simp] theorem State.logUnknown_readV (w : Word) (z : RegId) : (s.logUnknown w).readV z = s.readV z := rfl
@[simp] theorem State.logUnknown_byteAt (w : Word) (n : Nat) : (s.logUnknown w).byteAt n = s.byteAt n := rfl
@[simp] theorem State.logUnknown_keyDown (w : Word) (j : Fin 16) : (s.logUnknown w).keyDown j = s.keyDown j := rfl

/-! ### start -/
@[simp] theorem State.start_v : (s.start).v = s.v := rfl
@[simp] theorem State.start_i : (s.start).i = s.i := rfl
@[simp] theorem State.start_pc : (s.start).pc = s.pc := rfl
@[simp] theorem State.start_sp : (s.start).sp = s.sp := rfl
@[simp] theorem State.start_stack : (s.start).stack = s.stack := rfl
@[simp] theorem State.start_dt : (s.start).dt = s.dt := rfl
@[simp] theorem State.start_st : (s.start).st = s.st := rfl
@[simp] theorem State.start_key : (s.start).key = s.key := rfl
@[simp] theorem State.start_pix : (s.start).pix = s.pix := rfl
@[simp] theorem State.start_mem : (s.start).mem = s.mem := rfl
@[simp] theorem State.start_params : (s.start).params = s.params := rfl
@[simp] theorem State.start_started : (s.start).started = true := rfl
@[simp] theorem State.start_loaded : (s.start).loaded = s.loaded := rfl
@[simp] theorem State.start_ran : (s.start).ran = s.ran := rfl
@[simp] theorem State.start_halt : (s.start).halt = s.halt := rfl
@[simp] theorem State.start_sinceTick : (s.start).sinceTick = s.sinceTick := rfl
@[simp] theorem State.start_diag : (s.start).diag = s.diag := rfl
@[simp] theorem State.start_draws : (s.start).draws = s.draws := rfl
@[simp] theorem State.start_readV (z : RegId) : (s.start).readV z = s.readV z := rfl
@[simp] theorem State.start_byteAt (n : Nat) : (s.start).byteAt n = s.byteAt n := rfl
@[simp] theorem State.start_keyDown (j : Fin 16) : (s.start).keyDown j = s.keyDown j := rfl

/-! ### countDraw -/
@[simp] theorem State.countDraw_v : (s.countDraw).v = s.v := rfl
@[simp] theorem State.countDraw_i : (s.countDraw).i = s.i := rfl
@[simp] theorem State.countDraw_pc : (s.countDraw).pc = s.pc := rfl
@[simp] theorem State.countDraw_sp : (s.countDraw).sp = s.sp := rfl
@[simp] theorem State.countDraw_stack : (s.countDraw).stack = s.stack := rfl
@[simp] theorem State.countDraw_dt : (s.countDraw).dt = s.dt := rfl
@[simp] theorem State.countDraw_st : (s.countDraw).st = s.st := rfl
@[simp] theorem State.countDraw_key : (s.countDraw).key = s.key := rfl
@[simp] theorem State.countDraw_pix : (s.countDraw).pix = s.pix := rfl
@[simp] theorem State.countDraw_mem : (s.countDraw).mem = s.mem := rfl
@[simp] theorem State.countDraw_params : (s.countDraw).params = s.params := rfl
@[simp] theorem State.countDraw_started : (s.countDraw).started = s.started := rfl
@[simp] theorem State.countDraw_loaded : (s.countDraw).loaded = s.loaded := rfl
@[simp] theorem State.countDraw_ran : (s.countDraw).ran = s.ran := rfl
@[simp] theorem State.countDraw_halt : (s.countDraw).halt = s.halt := rfl
@[simp] theorem State.countDraw_sinceTick : (s.countDraw).sinceTick = s.sinceTick := rfl
@[simp] theorem State.countDraw_diag : (s.countDraw).diag = s.diag := rfl
@[simp] theorem State.countDraw_draws : (s.countDraw).draws = s.draws + 1 := rfl
@[simp] theorem State.countDraw_readV (z : RegId) : (s.countDraw).readV z = s.readV z := rfl
@[simp] theorem State.countDraw_byteAt (n : Nat) : (s.countDraw).byteAt n = s.byteAt n := rfl
@[simp] theorem State.countDraw_keyDown (j : Fin 16) : (s.countDraw).keyDown j = s.keyDown j := rfl

/-! ### writeSinceTick -/
@[simp] theorem State.writeSinceTick_v (d : Duration) : (s.writeSinceTick d).v = s.v := rfl
@[simp] theorem State.writeSinceTick_i (d : Duration) : (s.writeSinceTick d).i = s.i := rfl
@[simp] theorem State.writeSinceTick_pc (d : Duration) : (s.writeSinceTick d).pc = s.pc := rfl
@[simp] theorem State.writeSinceTick_sp (d : Duration) : (s.writeSinceTick d).sp = s.sp := rfl
@[simp] theorem State.writeSinceTick_stack (d : Duration) : (s.writeSinceTick d).stack = s.stack := rfl
@[simp] theorem State.writeSinceTick_dt (d : Duration) : (s.writeSinceTick d).dt = s.dt := rfl
@[simp] theorem State.writeSinceTick_st (d : Duration) : (s.writeSinceTick d).st = s.st := rfl
@[simp] theorem State.writeSinceTick_key (d : Duration) : (s.writeSinceTick d).key = s.key := rfl
@[simp] theorem State.writeSinceTick_pix (d : Duration) : (s.writeSinceTick d).pix = s.pix := rfl
@[simp] theorem State.writeSinceTick_mem (d : Duration) : (s.writeSinceTick d).mem = s.mem := rfl
@[simp] theorem State.writeSinceTick_params (d : Duration) : (s.writeSinceTick d).params = s.params := rfl
@[simp] theorem State.writeSinceTick_started (d : Duration) : (s.writeSinceTick d).started = s.started := rfl
@[simp] theorem State.writeSinceTick_loaded (d : Duration) : (s.writeSinceTick d).loaded = s.loaded := rfl
@[simp] theorem State.writeSinceTick_ran (d : Duration) : (s.writeSinceTick d).ran = s.ran := rfl
@[simp] theorem State.writeSinceTick_halt (d : Duration) : (s.writeSinceTick d).halt = s.halt := rfl
@[simp] theorem State.writeSinceTick_sinceTick (d : Duration) : (s.writeSinceTick d).sinceTick = d := rfl
@[simp] theorem State.writeSinceTick_diag (d : Duration) : (s.writeSinceTick d).diag = s.diag := rfl
@[simp] theorem State.writeSinceTick_draws (d : Duration) : (s.writeSinceTick d).draws = s.draws := rfl
@[simp] theorem State.writeSinceTick_readV (d : Duration) (z : RegId) : (s.writeSinceTick d).readV z = s.readV z := rfl
@[simp] theorem State.writeSinceTick_byteAt (d : Duration) (n : Nat) : (s.writeSinceTick d).byteAt n = s.byteAt n := rfl
@[simp] theorem State.writeSinceTick_keyDown (d : Duration) (j : Fin 16) : (s.writeSinceTick d).keyDown j = s.keyDown j := rfl

/-! ### markLoaded -/
@[simp] theorem State.markLoaded_v : (s.markLoaded).v = s.v := rfl
@[simp] theorem State.markLoaded_i : (s.markLoaded).i = s.i := rfl
@[simp] theorem State.markLoaded_pc : (s.markLoaded).pc = s.pc := rfl
@[simp] theorem State.markLoaded_sp : (s.markLoaded).sp = s.sp := rfl
@[simp] theorem State.markLoaded_stack : (s.markLoaded).stack = s.stack := rfl
@[simp] theorem State.markLoaded_dt : (s.markLoaded).dt = s.dt := rfl
@[simp] theorem State.markLoaded_st : (s.markLoaded).st = s.st := rfl
@[simp] theorem State.markLoaded_key : (s.markLoaded).key = s.key := rfl
@[simp] theorem State.markLoaded_pix : (s.markLoaded).pix = s.pix := rfl
@[simp] theorem State.markLoaded_mem : (s.markLoaded).mem = s.mem := rfl
@[simp] theorem State.markLoaded_params : (s.markLoaded).params = s.params := rfl
@[simp] theorem State.markLoaded_started : (s.markLoaded).started = s.started := rfl
@[simp] theorem State.markLoaded_loaded : (s.markLoaded).loaded = true := rfl
@[simp] theorem State.markLoaded_ran : (s.markLoaded).ran = s.ran := rfl
@[simp] theorem State.markLoaded_halt : (s.markLoaded).halt = s.halt := rfl
@[simp] theorem State.markLoaded_sinceTick : (s.markLoaded).sinceTick = s.sinceTick := rfl
@[simp] theorem State.markLoaded_diag : (s.markLoaded).diag = s.diag := rfl
@[simp] theorem State.markLoaded_draws : (s.markLoaded).draws = s.draws := rfl
@[simp] theorem State.markLoaded_readV (z : RegId) : (s.markLoaded).readV z = s.readV z := rfl
@[simp] theorem State.markLoaded_byteAt (n : Nat) : (s.markLoaded).byteAt n = s.byteAt n := rfl
@[simp] theorem State.markLoaded_keyDown (j : Fin 16) : (s.markLoaded).keyDown j = s.keyDown j := rfl

/-! ### markRan -/
@[simp] theorem State.markRan_v : (s.markRan).v = s.v := rfl
@[simp] theorem State.markRan_i : (s.markRan).i = s.i := rfl
@[simp] theorem State.markRan_pc : (s.markRan).pc = s.pc := rfl
@[simp] theorem State.markRan_sp : (s.markRan).sp = s.sp := rfl
@[simp] theorem State.markRan_stack : (s.markRan).stack = s.stack := rfl
@[simp] theorem State.markRan_dt : (s.markRan).dt = s.dt := rfl
@[simp] theorem State.markRan_st : (s.markRan).st = s.st := rfl
@[simp] theorem State.markRan_key : (s.markRan).key = s.key := rfl
@[simp] theorem State.markRan_pix : (s.markRan).pix = s.pix := rfl
@[simp] theorem State.markRan_mem : (s.markRan).mem = s.mem := rfl
@[simp] theorem State.markRan_params : (s.markRan).params = s.params := rfl
@[simp] theorem State.markRan_started : (s.markRan).started = s.started := rfl
@[simp] theorem State.markRan_loaded : (s.markRan).loaded = s.loaded := rfl
@[simp] theorem State.markRan_ran : (s.markRan).ran = true := rfl
@[simp] theorem State.markRan_halt : (s.markRan).halt = s.halt := rfl
@[simp] theorem State.markRan_sinceTick : (s.markRan).sinceTick = s.sinceTick := rfl
@[simp] theorem State.markRan_diag : (s.markRan).diag = s.diag := rfl
@[simp] theorem State.markRan_draws : (s.markRan).draws = s.draws := rfl
@[simp] theorem State.markRan_readV (z : RegId) : (s.markRan).readV z = s.readV z := rfl
@[simp] theorem State.markRan_byteAt (n : Nat) : (s.markRan).byteAt n = s.byteAt n := rfl
@[simp] theorem State.markRan_keyDown (j : Fin 16) : (s.markRan).keyDown j = s.keyDown j := rfl

/-! ### advance -/
@[simp] theorem State.advance_v : (s.advance).v = s.v := rfl
@[simp] theorem State.advance_i : (s.advance).i = s.i := rfl
@[simp] theorem State.advance_pc : (s.advance).pc = s.pc + 2 := rfl
@[simp] theorem State.advance_sp : (s.advance).sp = s.sp := rfl
@[simp] theorem State.advance_stack : (s.advance).stack = s.stack := rfl
@[simp] theorem State.advance_dt : (s.advance).dt = s.dt := rfl
@[simp] theorem State.advance_st : (s.advance).st = s.st := rfl
@[simp] theorem State.advance_key : (s.advance).key = s.key := rfl
@[simp] theorem State.advance_pix : (s.advance).pix = s.pix := rfl
@[simp] theorem State.advance_mem : (s.advance).mem = s.mem := rfl
@[simp] theorem State.advance_params : (s.advance).params = s.params := rfl
@[simp] theorem State.advance_started : (s.advance).started = s.started := rfl
@[simp] theorem State.advance_loaded : (s.advance).loaded = s.loaded := rfl
@[simp] theorem State.advance_ran : (s.advance).ran = s.ran := rfl
@[simp] theorem State.advance_halt : (s.advance).halt = s.halt := rfl
@[simp] theorem State.advance_sinceTick : (s.advance).sinceTick = s.sinceTick := rfl
@[simp] theorem State.advance_diag : (s.advance).diag = s.diag := rfl
@[simp] theorem State.advance_draws : (s.advance).draws = s.draws := rfl
@[simp] theorem State.advance_readV (z : RegId) : (s.advance).readV z = s.readV z := rfl
@[simp] theorem State.advance_byteAt (n : Nat) : (s.advance).byteAt n = s.byteAt n := rfl
@[simp] theorem State.advance_keyDown (j : Fin 16) : (s.advance).keyDown j = s.keyDown j := rfl

/-! ### skipIf -/
@[simp] theorem State.skipIf_v (c : Bool) : (s.skipIf c).v = s.v := rfl
@[simp] theorem State.skipIf_i (c : Bool) : (s.skipIf c).i = s.i := rfl
@[simp] theorem State.skipIf_pc (c : Bool) : (s.skipIf c).pc = if c then s.pc + 4 else s.pc + 2 := rfl
@[simp] theorem State.skipIf_sp (c : Bool) : (s.skipIf c).sp = s.sp := rfl
@[simp] theorem State.skipIf_stack (c : Bool) : (s.skipIf c).stack = s.stack := rfl
@[simp] theorem State.skipIf_dt (c : Bool) : (s.skipIf c).dt = s.dt := rfl
@[simp] theorem State.skipIf_st (c : Bool) : (s.skipIf c).st = s.st := rfl
@[simp] theorem State.skipIf_key (c : Bool) : (s.skipIf c).key = s.key := rfl
@[simp] theorem State.skipIf_pix (c : Bool) : (s.skipIf c).pix = s.pix := rfl
@[simp] theorem State.skipIf_mem (c : Bool) : (s.skipIf c).mem = s.mem := rfl
@[simp] theorem State.skipIf_params (c : Bool) : (s.skipIf c).params = s.params := rfl
@[simp] theorem State.skipIf_started (c : Bool) : (s.skipIf c).started = s.started := rfl
@[simp] theorem State.skipIf_loaded (c : Bool) : (s.skipIf c).loaded = s.loaded := rfl
@[simp] theorem State.skipIf_ran (c : Bool) : (s.skipIf c).ran = s.ran := rfl
@[simp] theorem State.skipIf_halt (c : Bool) : (s.skipIf c).halt = s.halt := rfl
@[simp] theorem State.skipIf_sinceTick (c : Bool) : (s.skipIf c).sinceTick = s.sinceTick := rfl
@[simp] theorem State.skipIf_diag (c : Bool) : (s.skipIf c).diag = s.diag := rfl
@[simp] theorem State.skipIf_draws (c : Bool) : (s.skipIf c).draws = s.draws := rfl
@[simp] theorem State.skipIf_readV (c : Bool) (z : RegId) : (s.skipIf c).readV z = s.readV z := rfl
@[simp] theorem State.skipIf_byteAt (c : Bool) (n : Nat) : (s.skipIf c).byteAt n = s.byteAt n := rfl
@[simp] theorem State.skipIf_keyDown (c : Bool) (j : Fin 16) : (s.skipIf c).keyDown j = s.keyDown j := rfl

/-! ### loadBlock -/
@[simp] theorem State.loadBlock_v (x : RegId) : (s.loadBlock x).v = loadRegisters s.v 0 (s.readBytes s.i.toNat (blockLength x)) := rfl
@[simp] theorem State.loadBlock_i (x : RegId) : (s.loadBlock x).i = s.i := rfl
@[simp] theorem State.loadBlock_pc (x : RegId) : (s.loadBlock x).pc = s.pc := rfl
@[simp] theorem State.loadBlock_sp (x : RegId) : (s.loadBlock x).sp = s.sp := rfl
@[simp] theorem State.loadBlock_stack (x : RegId) : (s.loadBlock x).stack = s.stack := rfl
@[simp] theorem State.loadBlock_dt (x : RegId) : (s.loadBlock x).dt = s.dt := rfl
@[simp] theorem State.loadBlock_st (x : RegId) : (s.loadBlock x).st = s.st := rfl
@[simp] theorem State.loadBlock_key (x : RegId) : (s.loadBlock x).key = s.key := rfl
@[simp] theorem State.loadBlock_pix (x : RegId) : (s.loadBlock x).pix = s.pix := rfl
@[simp] theorem State.loadBlock_mem (x : RegId) : (s.loadBlock x).mem = s.mem := rfl
@[simp] theorem State.loadBlock_params (x : RegId) : (s.loadBlock x).params = s.params := rfl
@[simp] theorem State.loadBlock_started (x : RegId) : (s.loadBlock x).started = s.started := rfl
@[simp] theorem State.loadBlock_loaded (x : RegId) : (s.loadBlock x).loaded = s.loaded := rfl
@[simp] theorem State.loadBlock_ran (x : RegId) : (s.loadBlock x).ran = s.ran := rfl
@[simp] theorem State.loadBlock_halt (x : RegId) : (s.loadBlock x).halt = s.halt := rfl
@[simp] theorem State.loadBlock_sinceTick (x : RegId) : (s.loadBlock x).sinceTick = s.sinceTick := rfl
@[simp] theorem State.loadBlock_diag (x : RegId) : (s.loadBlock x).diag = s.diag := rfl
@[simp] theorem State.loadBlock_draws (x : RegId) : (s.loadBlock x).draws = s.draws := rfl
@[simp] theorem State.loadBlock_byteAt (x : RegId) (n : Nat) : (s.loadBlock x).byteAt n = s.byteAt n := rfl
@[simp] theorem State.loadBlock_keyDown (x : RegId) (j : Fin 16) : (s.loadBlock x).keyDown j = s.keyDown j := rfl

/-! ### The fields and accessors that are read through an index -/

/-- A register after a register write: the value written, or the value before. -/
@[simp] theorem State.readV_writeV (x z : RegId) (b : Byte) :
    (s.writeV x b).readV z = if z = x then b else s.readV z := by
  unfold State.readV State.writeV
  simp only [Vector.getElem_set, BitVec.toNat_inj, eq_comm]

/-- A stack entry after a stack write. -/
@[simp] theorem State.getElem_writeStack (k j : Fin 16) (w : Word) :
    (s.writeStack k w).stack[j.val] = if j = k then w else s.stack[j.val] := by
  simp only [State.writeStack, Vector.getElem_set, Fin.val_inj, eq_comm]

/-- A key after a key write. -/
@[simp] theorem State.keyDown_writeKey (k j : Fin 16) (p : Bool) :
    (s.writeKey k p).keyDown j = if j = k then p else s.keyDown j := by
  simp only [State.keyDown, State.writeKey, Vector.getElem_set, Fin.val_inj, eq_comm]

/-- A pixel after a pixel write. -/
@[simp] theorem Display.pixel_setPixel (d : Display) (x x' : Fin 64) (y y' : Fin 32) (b : Bool) :
    (d.setPixel x y b).pixel x' y' = if x' = x ∧ y' = y then b else d.pixel x' y' := by
  unfold Display.pixel Display.setPixel
  simp only [Vector.getElem_set, Fin.val_inj]
  by_cases hy : y = y' <;> by_cases hx : x = x' <;> simp_all [Fin.val_inj, eq_comm]

/-- Every pixel of the clear display is unset (R212). -/
@[simp] theorem clearDisplay_pixel (x : Fin 64) (y : Fin 32) : clearDisplay.pixel x y = false := by
  simp [clearDisplay, Display.pixel]

end Sys2Proof.Machine
end

