-- ==== Sys2Proof/Laws/Memory.lean ====
section
/-! SUPPORT. Memory: read after write, and every operation keeps the canonical form. -/

namespace Sys2Proof.Machine

variable {p : Params} {m : Memory}

/-- Addresses strictly rising, the part of the canonical form that reads rest on. -/
abbrev Memory.Sorted (m : Memory) : Prop := m.Pairwise (fun c d => c.1 < d.1)

/-- Every listed address is above `a`, so `a` reads as its reset contents. -/
theorem Memory.get_of_lt (a : Nat) (h : ∀ c ∈ m, a < c.1) : Memory.get p m a = p.resetByte a := by
  induction m with
  | nil => rfl
  | cons c m ih =>
    have hc := h c (by simp)
    simp only [Memory.get, Nat.ne_of_gt hc, if_false]
    exact ih fun d hd => h d (by simp [hd])

/-- A byte written is read back at its address, and every other address reads as before (R69). -/
theorem Memory.get_put (hm : m.Sorted) (a c : Nat) (b : Byte) :
    Memory.get p (Memory.put p m a b) c = if c = a then b else Memory.get p m c := by
  induction m with
  | nil =>
    by_cases hb : b = p.resetByte a <;> by_cases hc : c = a <;>
      simp_all [Memory.put, Memory.get, eq_comm]
  | cons d m ih =>
    obtain ⟨hd, hm⟩ := List.pairwise_cons.1 hm
    have ih := ih hm
    unfold Memory.put
    split
    · next h =>
      have hg : Memory.get p (d :: m) a = p.resetByte a :=
        Memory.get_of_lt a (by
          intro e he
          rcases List.mem_cons.1 he with rfl | he
          · exact h
          · exact Nat.lt_trans h (hd e he))
      by_cases hb : b = p.resetByte a
      · by_cases hc : c = a
        · subst hc; simpa [hb] using hg
        · simp [hb, hc]
      · by_cases hc : c = a
        · simp [hb, hc, Memory.get]
        · simp [hb, hc, Memory.get, Ne.symm hc]
    · split
      · next h =>
        subst h
        have hg := Memory.get_of_lt (p := p) d.1 hd
        by_cases hb : b = p.resetByte d.1 <;> by_cases hc : c = d.1
        · subst hc; simp [hb, hg]
        · simp [hb, hc, Memory.get, Ne.symm hc]
        · simp [hb, hc, Memory.get]
        · simp [hb, hc, Memory.get, Ne.symm hc]
      · next h1 h2 =>
        simp only [Memory.get, ih]
        by_cases hc : d.1 = c
        · have : c ≠ a := by omega
          simp [hc, this]
        · simp [hc]

/-- An address listed after a write was listed before, or is the one written. -/
theorem Memory.mem_put {a : Nat} {b : Byte} {e : Host.Cell} (he : e ∈ Memory.put p m a b) :
    e ∈ m ∨ (e = (a, b) ∧ b ≠ p.resetByte a) := by
  induction m with
  | nil =>
    by_cases hb : b = p.resetByte a <;> simp_all [Memory.put]
  | cons d m ih =>
    unfold Memory.put at he
    split at he
    · split at he
      · exact .inl he
      · next hb =>
        rcases List.mem_cons.1 he with rfl | he
        · exact .inr ⟨rfl, hb⟩
        · exact .inl he
    · split at he
      · split at he
        · exact .inl (by simp [he])
        · next hb =>
          rcases List.mem_cons.1 he with rfl | he
          · exact .inr ⟨rfl, hb⟩
          · exact .inl (by simp [he])
      · rcases List.mem_cons.1 he with rfl | he
        · exact .inl (by simp)
        · rcases ih he with h | h
          · exact .inl (by simp [h])
          · exact .inr h

/-- A write keeps the addresses rising. -/
theorem Memory.put_sorted (hm : m.Sorted) (a : Nat) (b : Byte) : (Memory.put p m a b).Sorted := by
  induction m with
  | nil => unfold Memory.put; split <;> simp [Memory.Sorted]
  | cons d m ih =>
    obtain ⟨hd, hm'⟩ := List.pairwise_cons.1 hm
    unfold Memory.put
    split
    · next h =>
      split
      · exact hm
      · refine List.pairwise_cons.2 ⟨fun e he => ?_, hm⟩
        rcases List.mem_cons.1 he with rfl | he
        · exact h
        · exact Nat.lt_trans h (hd e he)
    · split
      · next h =>
        subst h
        split
        · exact hm'
        · exact List.pairwise_cons.2 ⟨hd, hm'⟩
      · next h1 h2 =>
        refine List.pairwise_cons.2 ⟨fun e he => ?_, ih hm'⟩
        rcases Memory.mem_put he with he | ⟨rfl, -⟩
        · exact hd e he
        · simp only; omega

/-- A write inside the address space keeps the canonical form. -/
theorem Memory.put_wf (hm : Memory.wf p m) {a : Nat} (ha : a < Config.memSize) (b : Byte) :
    Memory.wf p (Memory.put p m a b) := by
  refine ⟨Memory.put_sorted hm.1 a b, fun c hc => ?_⟩
  rcases Memory.mem_put hc with h | ⟨rfl, hb⟩
  · exact hm.2 c h
  · exact ⟨ha, hb⟩

/-- Writing bytes keeps the addresses rising. -/
theorem Memory.putBytes_sorted {m : Memory} (hm : m.Sorted) (a : Nat) (bs : List Byte) :
    (Memory.putBytes p m a bs).Sorted := by
  induction bs generalizing m a with
  | nil => exact hm
  | cons b bs ih => exact ih (Memory.put_sorted hm a b) (a + 1)

/-- Writing bytes inside the address space keeps the canonical form. -/
theorem Memory.putBytes_wf {m : Memory} (hm : Memory.wf p m) {a : Nat} {bs : List Byte}
    (ha : a + bs.length ≤ Config.memSize) : Memory.wf p (Memory.putBytes p m a bs) := by
  induction bs generalizing m a with
  | nil => exact hm
  | cons b bs ih =>
    simp only [List.length_cons] at ha
    exact ih (Memory.put_wf hm (by omega) b) (by omega)

/-- Memory after bytes are written: the written bytes at their addresses, every other address as before
(R15, R69). -/
theorem Memory.get_putBytes {m : Memory} (hm : m.Sorted) (a c : Nat) (bs : List Byte) :
    Memory.get p (Memory.putBytes p m a bs) c =
      if h : a ≤ c ∧ c - a < bs.length then bs[c - a] else Memory.get p m c := by
  induction bs generalizing m a with
  | nil => simp [Memory.putBytes]
  | cons b bs ih =>
    rw [Memory.putBytes, ih (Memory.put_sorted hm a b), Memory.get_put hm]
    by_cases h1 : a + 1 ≤ c ∧ c - (a + 1) < bs.length
    · have h2 : a ≤ c ∧ c - a < (b :: bs).length := by simp only [List.length_cons]; omega
      have h3 : c - a = (c - (a + 1)) + 1 := by omega
      rw [dif_pos h1, dif_pos h2]
      simp [h3]
    · rw [dif_neg h1]
      by_cases h4 : c = a
      · subst h4; simp
      · have h2 : ¬ (a ≤ c ∧ c - a < (b :: bs).length) := by simp only [List.length_cons]; omega
        rw [dif_neg h2, if_neg h4]

/-- A byte of the state after a write of bytes. -/
theorem State.byteAt_writeBytes {s : State} (hm : s.mem.Sorted) (a c : Nat) (bs : List Byte) :
    (s.writeBytes a bs).byteAt c =
      if h : a ≤ c ∧ c - a < bs.length then bs[c - a] else s.byteAt c :=
  Memory.get_putBytes hm a c bs

/-- The bytes read are as many as asked for. -/
@[simp] theorem State.length_readBytes (s : State) (a n : Nat) : (s.readBytes a n).length = n := by
  simp [State.readBytes]

/-- The k-th byte read is the one at address a + k. -/
@[simp] theorem State.getElem_readBytes (s : State) (a n k : Nat) (h : k < (s.readBytes a n).length) :
    (s.readBytes a n)[k] = s.byteAt (a + k) := by
  simp [State.readBytes]

/-- The register block is the first x + 1 registers. -/
@[simp] theorem State.length_registerBlock (s : State) (x : RegId) :
    (s.registerBlock x).length = x.toNat + 1 := by
  have := x.isLt
  simp [State.registerBlock, blockLength]; omega

/-- The k-th byte of the register block is V[k]. -/
theorem State.getElem_registerBlock (s : State) (x z : RegId)
    (h : z.toNat < (s.registerBlock x).length) : (s.registerBlock x)[z.toNat] = s.readV z := by
  simp [State.registerBlock, State.readV]

/-- The registers after a block load: the k-th byte in V[k], the registers past the block as before
(R186). -/
theorem getElem_loadRegisters (v : Vector Byte 16) (k j : Nat) (bs : List Byte) (hj : j < 16) :
    (loadRegisters v k bs)[j] = if h : k ≤ j ∧ j - k < bs.length then bs[j - k] else v[j] := by
  induction bs generalizing v k with
  | nil => simp [loadRegisters]
  | cons b bs ih =>
    rw [loadRegisters, ih]
    by_cases h1 : k + 1 ≤ j ∧ j - (k + 1) < bs.length
    · have h2 : k ≤ j ∧ j - k < (b :: bs).length := by simp only [List.length_cons]; omega
      have h3 : j - k = (j - (k + 1)) + 1 := by omega
      rw [dif_pos h1, dif_pos h2]
      simp [h3]
    · rw [dif_neg h1, Vector.getElem_setIfInBounds]
      by_cases h4 : j = k
      · subst h4; simp
      · have h2 : ¬ (k ≤ j ∧ j - k < (b :: bs).length) := by simp only [List.length_cons]; omega
        rw [dif_neg h2, if_neg (Ne.symm h4)]

/-- A register after FX65's block load. -/
theorem State.readV_loadBlock (s : State) (x z : RegId) :
    (s.loadBlock x).readV z =
      if z.toNat ≤ x.toNat then s.byteAt (s.i.toNat + z.toNat) else s.readV z := by
  unfold State.readV State.loadBlock
  rw [getElem_loadRegisters]
  by_cases h : z.toNat ≤ x.toNat
  · simp [h, blockLength, Nat.lt_succ_of_le h]
  · simp [h, blockLength]

/-- The range check as an inequality (R63). -/
theorem accessInRange_iff {a n : Nat} : accessInRange a n = true ↔ a + n ≤ 0x1000 := by
  simp [accessInRange]

/-- The range check failing as an inequality (R63). -/
theorem accessInRange_eq_false_iff {a n : Nat} : accessInRange a n = false ↔ 0x1000 < a + n := by
  simp [accessInRange]

/-- Reset memory is in canonical form. -/
theorem Memory.wf_nil (p : Params) : Memory.wf p [] := by simp [Memory.wf]

end Sys2Proof.Machine
end

