-- ==== Sys2Proof/Laws/Draw.lean ====
section
/-! SUPPORT. What the two loops of a sprite draw do, said once: which pixels a loop hits, that each of
them is inverted and no other changes, and when the collision flag is set. -/

namespace Sys2Proof.Machine

/-- Columns k to k + m − 1 of one row hit the pixel with a 1 bit. -/
def rowHits (clip : Bool) (ox : Nat) (y : Fin 32) (row : Byte) (k m : Nat) (px : Fin 64) (py : Fin 32) :
    Prop :=
  ∃ c, k ≤ c ∧ c < k + m ∧ row.getLsbD (7 - c) = true ∧ px.val = (ox + c) % 64 ∧ py = y ∧
    (clip = true → ox + c < 64)

/-- Rows r, r + 1, … of a sprite hit the pixel with a 1 bit. -/
def spriteHits (clip : Bool) (ox oy r : Nat) (rows : List Byte) (px : Fin 64) (py : Fin 32) : Prop :=
  ∃ j, ∃ h : j < rows.length, (clip = true → oy + (r + j) < 32) ∧
    rowHits clip ox (wrapY (oy + (r + j))) rows[j] 0 8 px py

/-- A canvas after drawing a set of pixels: those inverted, the others kept, and the flag set when one of
them was set. -/
structure Drawn (hits : Fin 64 → Fin 32 → Prop) (a b : Canvas) : Prop where
  inverted : ∀ px py, hits px py → b.pix.pixel px py = !a.pix.pixel px py
  kept : ∀ px py, ¬ hits px py → b.pix.pixel px py = a.pix.pixel px py
  flag : b.col = true ↔ a.col = true ∨ ∃ px py, hits px py ∧ a.pix.pixel px py = true

/-- Drawing nothing. -/
theorem Drawn.refl {hits : Fin 64 → Fin 32 → Prop} (h : ∀ px py, ¬ hits px py) (a : Canvas) :
    Drawn hits a a :=
  ⟨fun px py hp => absurd hp (h px py), fun _ _ _ => rfl, by simp [h]⟩

/-- Two disjoint draws one after the other. -/
theorem Drawn.trans {p q r : Fin 64 → Fin 32 → Prop} {a b c : Canvas} (hab : Drawn p a b)
    (hbc : Drawn q b c) (hr : ∀ px py, r px py ↔ p px py ∨ q px py)
    (hd : ∀ px py, p px py → ¬ q px py) : Drawn r a c := by
  refine ⟨fun px py h => ?_, fun px py h => ?_, ?_⟩
  · rcases (hr px py).1 h with hp | hq
    · rw [hbc.kept px py (hd px py hp), hab.inverted px py hp]
    · rw [hbc.inverted px py hq, hab.kept px py fun hp => hd px py hp hq]
  · have h' := mt (hr px py).2 h
    rw [hbc.kept px py fun hq => h' (.inr hq), hab.kept px py fun hp => h' (.inl hp)]
  · rw [hbc.flag, hab.flag]
    constructor
    · rintro ((h | ⟨px, py, hp, hs⟩) | ⟨px, py, hq, hs⟩)
      · exact .inl h
      · exact .inr ⟨px, py, (hr px py).2 (.inl hp), hs⟩
      · refine .inr ⟨px, py, (hr px py).2 (.inr hq), ?_⟩
        rwa [hab.kept px py fun hp => hd px py hp hq] at hs
    · rintro (h | ⟨px, py, h, hs⟩)
      · exact .inl (.inl h)
      · rcases (hr px py).1 h with hp | hq
        · exact .inl (.inr ⟨px, py, hp, hs⟩)
        · refine .inr ⟨px, py, hq, ?_⟩
          rwa [hab.kept px py fun hp => hd px py hp hq]

/-- One bit plotted is one pixel drawn, when the bit is 1. -/
theorem Canvas.plot_drawn (a : Canvas) (x : Fin 64) (y : Fin 32) (bit : Bool) :
    Drawn (fun px py => bit = true ∧ px = x ∧ py = y) a (a.plot x y bit) := by
  cases bit with
  | false => exact Drawn.refl (by simp) a
  | true =>
    refine ⟨?_, ?_, ?_⟩
    · rintro px py ⟨-, rfl, rfl⟩; simp [Canvas.plot]
    · intro px py h
      have : ¬ (px = x ∧ py = y) := by simpa using h
      simp [Canvas.plot, this]
    · simp [Canvas.plot]

/-- The loop over columns k to k + m − 1 of a row draws the pixels those columns hit (R210, R214). -/
theorem drawColumns_drawn (clip : Bool) (ox : Nat) (y : Fin 32) (row : Byte) (m k : Nat) (a : Canvas)
    (hk : k + m ≤ 8) :
    Drawn (rowHits clip ox y row k m) a (drawColumns clip ox y row (List.range' k m) a) := by
  induction m generalizing k a with
  | zero => exact Drawn.refl (by rintro px py ⟨c, h1, h2, -⟩; omega) a
  | succ m ih =>
    rw [List.range'_succ, drawColumns]
    split
    · next h =>
      simp only [Bool.and_eq_true, decide_eq_true_eq] at h
      refine Drawn.refl ?_ a
      rintro px py ⟨c, h1, h2, -, -, -, h3⟩
      have := h3 h.1
      omega
    · next h =>
      simp only [Bool.and_eq_true, decide_eq_true_eq, not_and, Nat.not_le] at h
      refine (Canvas.plot_drawn a (wrapX (ox + k)) y (row.getLsbD (7 - k))).trans
        (ih (k + 1) _ (by omega)) ?_ ?_
      · intro px py
        constructor
        · rintro ⟨c, h1, h2, h3, h4, h5, h6⟩
          by_cases hc : c = k
          · subst hc; exact .inl ⟨h3, Fin.ext h4, h5⟩
          · exact .inr ⟨c, by omega, by omega, h3, h4, h5, h6⟩
        · rintro (⟨h3, h4, h5⟩ | ⟨c, h1, h2, h3, h4, h5, h6⟩)
          · exact ⟨k, by omega, by omega, h3, congrArg Fin.val h4, h5, h⟩
          · exact ⟨c, by omega, by omega, h3, h4, h5, h6⟩
      · rintro px py ⟨-, rfl, -⟩ ⟨c, h1, h2, -, h4, -⟩
        simp only [wrapX] at h4
        omega

/-- The loop over the rows of a sprite draws the pixels the rows hit (R211, R213, R214): no pixel is hit
twice, because a row is 8 columns wide and a sprite has at most 32 rows. -/
theorem drawRows_drawn (clip : Bool) (ox oy : Nat) (rows : List Byte) (r : Nat) (a : Canvas)
    (hr : r + rows.length ≤ 32) :
    Drawn (spriteHits clip ox oy r rows) a (drawRows clip ox oy r rows a) := by
  induction rows generalizing r a with
  | nil => exact Drawn.refl (by rintro px py ⟨j, h, -⟩; simp at h) a
  | cons row rows ih =>
    simp only [List.length_cons] at hr
    rw [drawRows]
    split
    · next h =>
      simp only [Bool.and_eq_true, decide_eq_true_eq] at h
      refine Drawn.refl ?_ a
      rintro px py ⟨j, -, h2, -⟩
      have := h2 h.1
      omega
    · next h =>
      simp only [Bool.and_eq_true, decide_eq_true_eq, not_and, Nat.not_le] at h
      refine (drawColumns_drawn clip ox (wrapY (oy + r)) row 8 0 a (by omega)).trans
        (ih (r + 1) _ (by omega)) ?_ ?_
      · intro px py
        constructor
        · rintro ⟨j, hj, h2, h3⟩
          cases j with
          | zero => exact .inl h3
          | succ j =>
            simp only [List.length_cons] at hj
            have he : r + (j + 1) = r + 1 + j := by omega
            rw [he] at h2 h3
            exact .inr ⟨j, by omega, h2, h3⟩
        · rintro (h3 | ⟨j, hj, h2, h3⟩)
          · exact ⟨0, by simp, h, h3⟩
          · have he : r + (j + 1) = r + 1 + j := by omega
            refine ⟨j + 1, by simpa using hj, ?_, ?_⟩
            · rw [he]; exact h2
            · rw [he]; exact h3
      · rintro px py ⟨c, -, -, -, -, h5, -⟩ ⟨j, hj, -, ⟨c', -, -, -, -, h5', -⟩⟩
        have := h5.symm.trans h5'
        simp only [wrapY, Fin.mk.injEq] at this
        omega

/-- What DXYN draws is the set of pixels its sprite covers (R211). -/
theorem State.drawSprite_drawn (s : State) (x y : RegId) (n : BitVec 4) :
    Drawn (spriteCovers s x y n) { pix := s.pix, col := false } (s.drawSprite x y n) := by
  have h := drawRows_drawn s.params.quirks.drawClip (originX (s.readV x)) (originY (s.readV y))
    (s.readBytes s.i.toNat n.toNat) 0 { pix := s.pix, col := false }
    (by have := n.isLt; simp only [State.length_readBytes]; omega)
  have he : ∀ px py, spriteHits s.params.quirks.drawClip (originX (s.readV x)) (originY (s.readV y)) 0
      (s.readBytes s.i.toNat n.toNat) px py ↔ spriteCovers s x y n px py := by
    intro px py
    simp only [spriteHits, rowHits, spriteCovers, originX, originY, wrapY, Fin.ext_iff, Nat.zero_add,
      State.length_readBytes, State.getElem_readBytes]
    constructor
    · rintro ⟨r, hr, h1, c, -, hc, h2, h3, h4, h5⟩
      exact ⟨r, c, hr, hc, h2, h3, h4, fun hq => ⟨h5 hq, h1 hq⟩⟩
    · rintro ⟨r, c, hr, hc, h2, h3, h4, h5⟩
      exact ⟨r, hr, fun hq => (h5 hq).2, c, Nat.zero_le _, hc, h2, h3, h4, fun hq => (h5 hq).1⟩
  have hf : spriteHits s.params.quirks.drawClip (originX (s.readV x)) (originY (s.readV y)) 0
      (s.readBytes s.i.toNat n.toNat) = spriteCovers s x y n :=
    funext fun px => funext fun py => propext (he px py)
  exact hf ▸ h

end Sys2Proof.Machine
end

