-- ==== Sys2Proof/Laws/Exec.lean ====
section
/-! SUPPORT. The shared operations of the meanings, each said once: what it answers. -/

namespace Sys2Proof.Machine

variable (s : State)

/-- A fatal error answers the state with HALT set and nothing else changed (R300). -/
theorem State.raiseFatal_eq (c : Cause) : s.raiseFatal c = .next { s with halt := .fatal c } := rfl

/-- Raising a fatal error changes no part but HALT (R300). -/
theorem State.halt_sameExcept (h : Halt) :
    SameExcept (fun p => p = .halt) s { s with halt := h } := by
  intro p hp
  cases p <;> first | rfl | exact absurd rfl hp

/-- Moving PC changes no part but PC. -/
theorem State.writePc_sameExcept (w : Word) : SameExcept (fun p => p = .pc) s (s.writePc w) := by
  intro p hp
  cases p <;> first | rfl | exact absurd rfl hp

/-- Writing a register changes no part but that register. -/
theorem State.writeV_sameExcept (x : RegId) (b : Byte) :
    SameExcept (fun p => p = .reg x) s (s.writeV x b) := by
  intro p hp
  cases p with
  | reg z =>
    have : z ≠ x := fun h => hp (h ▸ rfl)
    simp [Part.same, this]
  | _ => rfl

/-- Frames compose: what neither of two changes touches is untouched. -/
theorem SameExcept.trans {p q : Part → Prop} {s t u : State} (h : SameExcept p s t)
    (h' : SameExcept q t u) : SameExcept (fun r => p r ∨ q r) s u := by
  intro r hr
  have h1 := h r fun hp => hr (.inl hp)
  have h2 := h' r fun hq => hr (.inr hq)
  cases r <;> exact Eq.trans h2 h1

/-- A frame may be weakened to more parts. -/
theorem SameExcept.mono {p q : Part → Prop} {s t : State} (h : SameExcept p s t)
    (hpq : ∀ r, p r → q r) : SameExcept q s t :=
  fun r hr => h r fun hp => hr (hpq r hp)

/-- PC after `advance`, as a number (R19). -/
theorem State.toNat_pc_advance : s.advance.pc.toNat = (s.pc.toNat + 2) % 2 ^ 16 := by
  simp [BitVec.toNat_add]

/-! ### Frames of the updates -/

/-- Writing I changes no part but I. -/
theorem State.writeI_sameExcept (w : Word) : SameExcept (fun p => p = .i) s (s.writeI w) := by
  intro p hp
  cases p <;> first | rfl | exact absurd rfl hp

/-- Writing DT changes no part but DT. -/
theorem State.writeDt_sameExcept (b : Byte) : SameExcept (fun p => p = .dt) s (s.writeDt b) := by
  intro p hp
  cases p <;> first | rfl | exact absurd rfl hp

/-- Writing ST changes no part but ST. -/
theorem State.writeSt_sameExcept (b : Byte) : SameExcept (fun p => p = .st) s (s.writeSt b) := by
  intro p hp
  cases p <;> first | rfl | exact absurd rfl hp

/-- Writing SP changes no part but SP. -/
theorem State.writeSp_sameExcept (b : Byte) : SameExcept (fun p => p = .sp) s (s.writeSp b) := by
  intro p hp
  cases p <;> first | rfl | exact absurd rfl hp

/-- Setting `started` changes no part but `started`. -/
theorem State.start_sameExcept : SameExcept (fun p => p = .started) s s.start := by
  intro p hp
  cases p <;> first | rfl | exact absurd rfl hp

/-- Counting a draw changes no part but the counter. -/
theorem State.countDraw_sameExcept : SameExcept (fun p => p = .draws) s s.countDraw := by
  intro p hp
  cases p <;> first | rfl | exact absurd rfl hp

/-- Replacing the pixel buffer changes no part but pixels. -/
theorem State.writePix_sameExcept (d : Display) :
    SameExcept (fun p => ∃ x y, p = .pixel x y) s (s.writePix d) := by
  intro p hp
  cases p <;> first | rfl | exact absurd ⟨_, _, rfl⟩ hp

/-- Writing a stack entry changes no part but that entry. -/
theorem State.writeStack_sameExcept (k : Fin 16) (w : Word) :
    SameExcept (fun p => p = .stackSlot k) s (s.writeStack k w) := by
  intro p hp
  cases p with
  | stackSlot j =>
    have : k ≠ j := fun h => hp (h ▸ rfl)
    have hkj : ¬ k.val = j.val := fun h => this (Fin.ext h)
    show (s.stack.set k.val w k.isLt)[j.val] = s.stack[j.val]
    rw [Vector.getElem_set, if_neg hkj]
  | _ => rfl

/-- Writing bytes changes no part but the bytes of the range (R15). -/
theorem State.writeBytes_sameExcept (hm : s.mem.Sorted) (a : Nat) (bs : List Byte) :
    SameExcept (fun p => ∃ c, p = .memByte c ∧ a ≤ c ∧ c < a + bs.length) s (s.writeBytes a bs) := by
  intro p hp
  cases p with
  | memByte c =>
    have h : ¬ (a ≤ c ∧ c - a < bs.length) := by
      rintro ⟨h1, h2⟩
      exact hp ⟨c, rfl, h1, by omega⟩
    exact (State.byteAt_writeBytes hm a c bs).trans (dif_neg h)
  | _ => rfl

/-- The step of I after a block transfer changes I only, and only under `mem_inc_i` (R185, R186). -/
theorem State.bumpIIfLegacy_sameExcept (x : RegId) :
    SameExcept (fun p => p = .i ∧ s.params.quirks.memIncI = true) s (s.bumpIIfLegacy x) := by
  intro p hp
  cases p with
  | i =>
    have : s.params.quirks.memIncI = false := by simpa using hp
    simp [Part.same, State.bumpIIfLegacy, this]
  | _ => rfl

/-- A block load changes no part but the registers 0 to x (R186). -/
theorem State.loadBlock_sameExcept (x : RegId) :
    SameExcept (fun p => ∃ z, p = .reg z ∧ z.toNat ≤ x.toNat) s (s.loadBlock x) := by
  intro p hp
  cases p with
  | reg z =>
    have : ¬ z.toNat ≤ x.toNat := fun h => hp ⟨z, rfl, h⟩
    exact (s.readV_loadBlock x z).trans (if_neg this)
  | _ => rfl

/-! ### What the shared answers are -/

/-- `advance` moves PC on by one instruction (R19). -/
theorem State.advance_advances : Advances s s.advance := s.toNat_pc_advance

/-- A skip whose predicate holds moves PC on by two instructions (R19). -/
theorem State.skipIf_true : SkipsNext s (s.skipIf true) := by
  simp [SkipsNext, State.skipIf, BitVec.toNat_add]

/-- A skip whose predicate fails moves PC on by one instruction (R19). -/
theorem State.skipIf_false : Advances s (s.skipIf false) := by
  simp [Advances, State.skipIf, BitVec.toNat_add]

/-- A result and then a flag: what `resultThenFlag` answers (R100). -/
theorem State.resultThenFlag_next (x : RegId) (r f : Byte) :
    ∃ t, s.resultThenFlag x r f = .next t ∧ t.readV VF = f ∧ (x ≠ VF → t.readV x = r) ∧ Advances s t ∧
      SameExcept (fun p => (p = .reg x ∨ p = .reg VF) ∨ p = .pc) s t :=
  ⟨_, rfl, by simp, fun h => by simp [h], by simp [Advances, BitVec.toNat_add],
    ((s.writeV_sameExcept x r).trans (State.writeV_sameExcept _ VF f)).trans
      (State.writePc_sameExcept _ _)⟩

/-- Fetching with PC above 0xFFE is fatal (R80, R305). -/
theorem fetchAndRun_of_not_fetchable (h : s.fetchable = false) :
    fetchAndRun s = s.raiseFatal .fetchOutOfRange := by
  simp [fetchAndRun, h]

/-- Fetching a word that decodes to an instruction runs it (R81, R82). -/
theorem fetchAndRun_of_instr {i : Instr} (h : s.fetchable = true) (hd : decode s.fetchWord = .instr i) :
    fetchAndRun s = exec i s := by
  simp [fetchAndRun, h, runWord, hd]

/-- Fetching an unrecognised word logs it and advances (R149). -/
theorem fetchAndRun_of_unknown {w : Word} (h : s.fetchable = true)
    (hd : decode s.fetchWord = .unknown w) : fetchAndRun s = .next (s.logUnknown w).advance := by
  simp [fetchAndRun, h, runWord, hd, execUnknown]

/-- No key is recorded exactly when none is pressed (R246). -/
theorem State.lowestKey_eq_none : s.lowestKey = none ↔ ∀ k, s.keyDown k = false := by
  simp only [State.lowestKey, List.findIdx?_eq_none_iff, id_eq, State.keyDown]
  constructor
  · intro h k
    exact h _ (by simp)
  · intro h x hx
    obtain ⟨k, hk, rfl⟩ := List.getElem_of_mem hx
    simp only [Vector.length_toList] at hk
    simpa using h ⟨k, hk⟩

/-- The key recorded is pressed, and no lower one is (R246). -/
theorem State.lowestKey_eq_some {k : Nat} :
    s.lowestKey = some k ↔
      ∃ h : k < 16, s.keyDown ⟨k, h⟩ = true ∧ ∀ j : Fin 16, j.val < k → s.keyDown j = false := by
  simp only [State.lowestKey, List.findIdx?_eq_some_iff_getElem, id_eq, State.keyDown,
    Vector.length_toList, Vector.getElem_toList, Bool.not_eq_true]
  constructor
  · rintro ⟨h, h1, h2⟩
    exact ⟨h, h1, fun j hj => h2 j.val hj⟩
  · rintro ⟨h, h1, h2⟩
    exact ⟨h, h1, fun j hj => h2 ⟨j, by omega⟩ hj⟩

/-- A timer counted down, as a number: one less, and never below zero (R320). -/
theorem toNat_countDown (t : Byte) : (countDown t).toNat = t.toNat - 1 := by
  unfold countDown
  split
  · next h => subst h; rfl
  · next h =>
    have h1 : t.toNat ≠ 0 := fun h2 => h (BitVec.eq_of_toNat_eq (by simpa using h2))
    have := t.isLt
    rw [BitVec.toNat_sub]
    simp only [BitVec.ofNat_eq_ofNat, BitVec.toNat_ofNat]
    omega

/-- A step on a halted engine does nothing (R307). -/
theorem step_of_halted {s : State} (h : s.halt ≠ .running) : step s = .next s := by
  simp [step, stepState, h]

/-- A step on a running engine sets `started` and fetches (R316). -/
theorem step_of_running {s : State} (h : s.halt = .running) : step s = fetchAndRun s.start := by
  simp [step, stepState, h]

end Sys2Proof.Machine
end

