-- ==== Sys2Proof/Laws/PerInstr.lean ====
section
/-! SUPPORT. Facts proved once for each instruction. -/

namespace Sys2Proof.Laws.EncodeSelectsRow

/-- The word of an instruction selects the row of the opcode map under its own mnemonic (R85). -/
def Statement (i : Instr) : Prop :=
  ∃ r ∈ opcodeMap, r.mnemonic = i.mnemonic ∧ r.selects (encode i) = true

/-- A row of the opcode map by its place. -/
theorem of_place {i : Instr} (k : Nat) (hk : k < opcodeMap.length) (hm : opcodeMap[k].mnemonic = i.mnemonic)
    (hs : encode i &&& opcodeMap[k].mask = opcodeMap[k].pattern) : Statement i :=
  ⟨opcodeMap[k], List.getElem_mem hk, hm, by simpa [Row.selects] using hs⟩

theorem cls : Statement .cls :=
  of_place 0 (by decide) rfl rfl

theorem ret : Statement .ret :=
  of_place 1 (by decide) rfl rfl

theorem jpNnn (nnn : Addr) : Statement (.jpNnn nnn) :=
  of_place 2 (by decide) rfl ((packNNN_and_F000 ..).trans rfl)

theorem callNnn (nnn : Addr) : Statement (.callNnn nnn) :=
  of_place 3 (by decide) rfl ((packNNN_and_F000 ..).trans rfl)

theorem seVxNn (x : RegId) (nn : Byte) : Statement (.seVxNn x nn) :=
  of_place 4 (by decide) rfl ((packXNN_and_F000 ..).trans rfl)

theorem sneVxNn (x : RegId) (nn : Byte) : Statement (.sneVxNn x nn) :=
  of_place 5 (by decide) rfl ((packXNN_and_F000 ..).trans rfl)

theorem seVxVy (x y : RegId) : Statement (.seVxVy x y) :=
  of_place 6 (by decide) rfl ((packXYN_and_F00F ..).trans rfl)

theorem ldVxNn (x : RegId) (nn : Byte) : Statement (.ldVxNn x nn) :=
  of_place 7 (by decide) rfl ((packXNN_and_F000 ..).trans rfl)

theorem addVxNn (x : RegId) (nn : Byte) : Statement (.addVxNn x nn) :=
  of_place 8 (by decide) rfl ((packXNN_and_F000 ..).trans rfl)

theorem ldVxVy (x y : RegId) : Statement (.ldVxVy x y) :=
  of_place 9 (by decide) rfl ((packXYN_and_F00F ..).trans rfl)

theorem orVxVy (x y : RegId) : Statement (.orVxVy x y) :=
  of_place 10 (by decide) rfl ((packXYN_and_F00F ..).trans rfl)

theorem andVxVy (x y : RegId) : Statement (.andVxVy x y) :=
  of_place 11 (by decide) rfl ((packXYN_and_F00F ..).trans rfl)

theorem xorVxVy (x y : RegId) : Statement (.xorVxVy x y) :=
  of_place 12 (by decide) rfl ((packXYN_and_F00F ..).trans rfl)

theorem addVxVy (x y : RegId) : Statement (.addVxVy x y) :=
  of_place 13 (by decide) rfl ((packXYN_and_F00F ..).trans rfl)

theorem subVxVy (x y : RegId) : Statement (.subVxVy x y) :=
  of_place 14 (by decide) rfl ((packXYN_and_F00F ..).trans rfl)

theorem shrVxVy (x y : RegId) : Statement (.shrVxVy x y) :=
  of_place 15 (by decide) rfl ((packXYN_and_F00F ..).trans rfl)

theorem subnVxVy (x y : RegId) : Statement (.subnVxVy x y) :=
  of_place 16 (by decide) rfl ((packXYN_and_F00F ..).trans rfl)

theorem shlVxVy (x y : RegId) : Statement (.shlVxVy x y) :=
  of_place 17 (by decide) rfl ((packXYN_and_F00F ..).trans rfl)

theorem sneVxVy (x y : RegId) : Statement (.sneVxVy x y) :=
  of_place 18 (by decide) rfl ((packXYN_and_F00F ..).trans rfl)

theorem ldINnn (nnn : Addr) : Statement (.ldINnn nnn) :=
  of_place 19 (by decide) rfl ((packNNN_and_F000 ..).trans rfl)

theorem jpV0Nnn (nnn : Addr) : Statement (.jpV0Nnn nnn) :=
  of_place 20 (by decide) rfl ((packNNN_and_F000 ..).trans rfl)

theorem rndVxNn (x : RegId) (nn : Byte) : Statement (.rndVxNn x nn) :=
  of_place 21 (by decide) rfl ((packXNN_and_F000 ..).trans rfl)

theorem drwVxVyN (x y : RegId) (n : BitVec 4) : Statement (.drwVxVyN x y n) :=
  of_place 22 (by decide) rfl ((packXYN_and_F000 ..).trans rfl)

theorem skpVx (x : RegId) : Statement (.skpVx x) :=
  of_place 23 (by decide) rfl ((packXNN_and_F0FF ..).trans rfl)

theorem sknpVx (x : RegId) : Statement (.sknpVx x) :=
  of_place 24 (by decide) rfl ((packXNN_and_F0FF ..).trans rfl)

theorem ldVxDt (x : RegId) : Statement (.ldVxDt x) :=
  of_place 25 (by decide) rfl ((packXNN_and_F0FF ..).trans rfl)

theorem ldVxK (x : RegId) : Statement (.ldVxK x) :=
  of_place 26 (by decide) rfl ((packXNN_and_F0FF ..).trans rfl)

theorem ldDtVx (x : RegId) : Statement (.ldDtVx x) :=
  of_place 27 (by decide) rfl ((packXNN_and_F0FF ..).trans rfl)

theorem ldStVx (x : RegId) : Statement (.ldStVx x) :=
  of_place 28 (by decide) rfl ((packXNN_and_F0FF ..).trans rfl)

theorem addIVx (x : RegId) : Statement (.addIVx x) :=
  of_place 29 (by decide) rfl ((packXNN_and_F0FF ..).trans rfl)

theorem ldFVx (x : RegId) : Statement (.ldFVx x) :=
  of_place 30 (by decide) rfl ((packXNN_and_F0FF ..).trans rfl)

theorem ldBVx (x : RegId) : Statement (.ldBVx x) :=
  of_place 31 (by decide) rfl ((packXNN_and_F0FF ..).trans rfl)

theorem ldMemVx (x : RegId) : Statement (.ldMemVx x) :=
  of_place 32 (by decide) rfl ((packXNN_and_F0FF ..).trans rfl)

theorem ldVxMem (x : RegId) : Statement (.ldVxMem x) :=
  of_place 33 (by decide) rfl ((packXNN_and_F0FF ..).trans rfl)

end Sys2Proof.Laws.EncodeSelectsRow
end

