-- ==== Sys2Proof/Machine/Assembly.lean ====
section
/-! DEFINITION. The spelling of instructions this spec uses (R90, R91, D41). No step depends on it. -/

namespace Sys2Proof

/-- The hexadecimal digits. -/
def hexDigits : Vector String 16 :=
  #v["0", "1", "2", "3", "4", "5", "6", "7", "8", "9", "A", "B", "C", "D", "E", "F"]

/-- One hexadecimal digit. -/
def hexDigit (d : BitVec 4) : String := hexDigits[d.toNat]'d.isLt

/-- `Vx`, x in hexadecimal (R90). -/
def spellRegister (x : RegId) : String := "V" ++ hexDigit x

/-- A byte as an immediate with the prefix 0x (R90). -/
def spellByte (b : Byte) : String :=
  "0x" ++ hexDigit (b.extractLsb' 4 4) ++ hexDigit (b.extractLsb' 0 4)

/-- An address as an immediate with the prefix 0x (R90). -/
def spellAddr (a : Addr) : String :=
  "0x" ++ hexDigit (a.extractLsb' 8 4) ++ hexDigit (a.extractLsb' 4 4) ++ hexDigit (a.extractLsb' 0 4)

/-- A number below 16 in decimal (R90). -/
def spellDecimal (n : BitVec 4) : String :=
  if n.toNat < 10 then hexDigit n else "1" ++ hexDigit (n - 10)

/-- A mnemonic with two operands, the destination first (R90). -/
def spellTwo (name a b : String) : String := name ++ " " ++ a ++ ", " ++ b

/-- The assembly spelling of an instruction (R90). SHR and SHL name both registers in every quirk setting
(R91). -/
def Instr.assembly : Instr → String
  | .cls => "CLS"
  | .ret => "RET"
  | .jpNnn nnn => "JP " ++ spellAddr nnn
  | .callNnn nnn => "CALL " ++ spellAddr nnn
  | .seVxNn x nn => spellTwo "SE" (spellRegister x) (spellByte nn)
  | .sneVxNn x nn => spellTwo "SNE" (spellRegister x) (spellByte nn)
  | .seVxVy x y => spellTwo "SE" (spellRegister x) (spellRegister y)
  | .ldVxNn x nn => spellTwo "LD" (spellRegister x) (spellByte nn)
  | .addVxNn x nn => spellTwo "ADD" (spellRegister x) (spellByte nn)
  | .ldVxVy x y => spellTwo "LD" (spellRegister x) (spellRegister y)
  | .orVxVy x y => spellTwo "OR" (spellRegister x) (spellRegister y)
  | .andVxVy x y => spellTwo "AND" (spellRegister x) (spellRegister y)
  | .xorVxVy x y => spellTwo "XOR" (spellRegister x) (spellRegister y)
  | .addVxVy x y => spellTwo "ADD" (spellRegister x) (spellRegister y)
  | .subVxVy x y => spellTwo "SUB" (spellRegister x) (spellRegister y)
  | .shrVxVy x y => spellTwo "SHR" (spellRegister x) (spellRegister y)
  | .subnVxVy x y => spellTwo "SUBN" (spellRegister x) (spellRegister y)
  | .shlVxVy x y => spellTwo "SHL" (spellRegister x) (spellRegister y)
  | .sneVxVy x y => spellTwo "SNE" (spellRegister x) (spellRegister y)
  | .ldINnn nnn => spellTwo "LD" "I" (spellAddr nnn)
  | .jpV0Nnn nnn => spellTwo "JP" "V0" (spellAddr nnn)
  | .rndVxNn x nn => spellTwo "RND" (spellRegister x) (spellByte nn)
  | .drwVxVyN x y n => spellTwo "DRW" (spellRegister x) (spellRegister y) ++ ", " ++ spellDecimal n
  | .skpVx x => "SKP " ++ spellRegister x
  | .sknpVx x => "SKNP " ++ spellRegister x
  | .ldVxDt x => spellTwo "LD" (spellRegister x) "DT"
  | .ldVxK x => spellTwo "LD" (spellRegister x) "K"
  | .ldDtVx x => spellTwo "LD" "DT" (spellRegister x)
  | .ldStVx x => spellTwo "LD" "ST" (spellRegister x)
  | .addIVx x => spellTwo "ADD" "I" (spellRegister x)
  | .ldFVx x => spellTwo "LD" "F" (spellRegister x)
  | .ldBVx x => spellTwo "LD" "B" (spellRegister x)
  | .ldMemVx x => spellTwo "LD" "[I]" (spellRegister x)
  | .ldVxMem x => spellTwo "LD" (spellRegister x) "[I]"

end Sys2Proof
end

