-- ==== Sys2Proof/Tests/Slice0.lean ====
section
/-! SUPPORT. The model's own tests. Expected values are the vectors of spec/95_test_vectors.md (named in
each docstring), the tables of the spec, or calculated by hand from a rule. At the end, a witness for every
obligation that has hypotheses. -/

namespace Sys2Proof.Tests

open Sys2Proof Sys2Proof.Machine

/-! ### Helpers -/

/-- A legacy engine with the spec's font and a budget of 10. -/
abbrev old : State := State.construct (.withDefaultFont .legacy 10)

/-- A modern engine with the spec's font and a budget of 10. -/
abbrev new : State := State.construct (.withDefaultFont .modern 10)

/-- What a state the machine answers with holds; `none` where it stops. -/
def after {α : Type} (r : Result) (view : State → α) : Option α :=
  match r with
  | .next t => some (view t)
  | .fault _ => none
  | .refused _ => none

/-- The pixels set in one row, by column. -/
def litColumns (s : State) (y : Fin 32) : List (Fin 64) :=
  (List.finRange 64).filter (fun x => s.pix.pixel x y)

/-! ### WellFormed refuses ill-formed terms -/

/-- A budget of 0 is below 1 (R11). -/
theorem test_budget_zero_refused : ¬ (Params.withDefaultFont .legacy 0).WellFormed := by decide

/-- A font at 0x1B1 ends at 0x200, in the program region (R61). -/
theorem test_font_out_of_region_refused :
    ¬ ({ Params.withDefaultFont .legacy 1 with fontBase := 0x1B1 } : Params).WellFormed := by decide

/-- 3585 bytes are one too many (R301), 3584 are not. -/
theorem test_long_program_refused : ¬ ProgramWellFormed (List.replicate 3585 0) ∧
    ProgramWellFormed (List.replicate 3584 0) := by
  unfold ProgramWellFormed
  rw [List.length_replicate, List.length_replicate]
  decide

/-- Key 16 does not exist (R332). -/
theorem test_key_sixteen_refused : ¬ KeyIndexWellFormed 16 := by decide

/-! ### Decoding: one word of every instruction, written out from the encodings of R85 -/

theorem test_decode_cls : decode 0b0000000011100000 = .instr (.cls) := by decide
theorem test_decode_ret : decode 0b0000000011101110 = .instr (.ret) := by decide
theorem test_decode_jpNnn : decode 0b0001001100000000 = .instr (.jpNnn 0x300) := by decide
theorem test_decode_callNnn : decode 0b0010001000010000 = .instr (.callNnn 0x210) := by decide
theorem test_decode_seVxNn : decode 0b0011101001000010 = .instr (.seVxNn 0xA 0x42) := by decide
theorem test_decode_sneVxNn : decode 0b0100101001000010 = .instr (.sneVxNn 0xA 0x42) := by decide
theorem test_decode_seVxVy : decode 0b0101000100100000 = .instr (.seVxVy 0x1 0x2) := by decide
theorem test_decode_ldVxNn : decode 0b0110000000000101 = .instr (.ldVxNn 0x0 0x05) := by decide
theorem test_decode_addVxNn : decode 0b0111000000000011 = .instr (.addVxNn 0x0 0x03) := by decide
theorem test_decode_ldVxVy : decode 0b1000010100110000 = .instr (.ldVxVy 0x5 0x3) := by decide
theorem test_decode_orVxVy : decode 0b1000010100110001 = .instr (.orVxVy 0x5 0x3) := by decide
theorem test_decode_andVxVy : decode 0b1000010100110010 = .instr (.andVxVy 0x5 0x3) := by decide
theorem test_decode_xorVxVy : decode 0b1000010100110011 = .instr (.xorVxVy 0x5 0x3) := by decide
theorem test_decode_addVxVy : decode 0b1000010100110100 = .instr (.addVxVy 0x5 0x3) := by decide
theorem test_decode_subVxVy : decode 0b1000010100110101 = .instr (.subVxVy 0x5 0x3) := by decide
theorem test_decode_shrVxVy : decode 0b1000010100110110 = .instr (.shrVxVy 0x5 0x3) := by decide
theorem test_decode_subnVxVy : decode 0b1000010100110111 = .instr (.subnVxVy 0x5 0x3) := by decide
theorem test_decode_shlVxVy : decode 0b1000010100111110 = .instr (.shlVxVy 0x5 0x3) := by decide
theorem test_decode_sneVxVy : decode 0b1001000100100000 = .instr (.sneVxVy 0x1 0x2) := by decide
theorem test_decode_ldINnn : decode 0b1010001100000001 = .instr (.ldINnn 0x301) := by decide
theorem test_decode_jpV0Nnn : decode 0b1011001100000001 = .instr (.jpV0Nnn 0x301) := by decide
theorem test_decode_rndVxNn : decode 0b1100001100001111 = .instr (.rndVxNn 0x3 0x0F) := by decide
theorem test_decode_drwVxVyN : decode 0b1101000100100101 = .instr (.drwVxVyN 0x1 0x2 0x5) := by decide
theorem test_decode_skpVx : decode 0b1110010110011110 = .instr (.skpVx 0x5) := by decide
theorem test_decode_sknpVx : decode 0b1110010110100001 = .instr (.sknpVx 0x5) := by decide
theorem test_decode_ldVxDt : decode 0b1111001100000111 = .instr (.ldVxDt 0x3) := by decide
theorem test_decode_ldVxK : decode 0b1111000100001010 = .instr (.ldVxK 0x1) := by decide
theorem test_decode_ldDtVx : decode 0b1111000100010101 = .instr (.ldDtVx 0x1) := by decide
theorem test_decode_ldStVx : decode 0b1111000100011000 = .instr (.ldStVx 0x1) := by decide
theorem test_decode_addIVx : decode 0b1111001000011110 = .instr (.addIVx 0x2) := by decide
theorem test_decode_ldFVx : decode 0b1111010000101001 = .instr (.ldFVx 0x4) := by decide
theorem test_decode_ldBVx : decode 0b1111101000110011 = .instr (.ldBVx 0xA) := by decide
theorem test_decode_ldMemVx : decode 0b1111001001010101 = .instr (.ldMemVx 0x2) := by decide
theorem test_decode_ldVxMem : decode 0b1111001001100101 = .instr (.ldVxMem 0x2) := by decide

/-- B10 to B13: words with a wrong fixed nibble are unrecognised (R87). -/
theorem test_decode_unknown : decode 0x5121 = .unknown 0x5121 ∧ decode 0x9123 = .unknown 0x9123 ∧
    decode 0x0123 = .unknown 0x0123 ∧ decode 0x0000 = .unknown 0x0000 ∧
    decode 0x8008 = .unknown 0x8008 ∧ decode 0xF000 = .unknown 0xF000 := by decide

/-- No two rows of the opcode map can be selected by one word (R81): the fixed nibbles both have differ
somewhere. -/
theorem test_rows_disjoint :
    opcodeMap.Pairwise (fun r q => r.pattern &&& (r.mask &&& q.mask) ≠ q.pattern &&& (r.mask &&& q.mask)) := by
  decide

/-- The table's own numbering of a word, stored in memory order and read back (R64). -/
theorem test_decode_table_word : decodeTableWord 16 0xD125 = some (.drwVxVyN 1 2 5) ∧
    decodeTableWord 16 0x0000 = none := by decide

/-- The spelling of R90 and R91, from the listings of spec/95_test_vectors.md. -/
theorem test_assembly : (Instr.seVxNn 0x0 0x05).assembly = "SE V0, 0x05" ∧
    (Instr.jpNnn 0x204).assembly = "JP 0x204" ∧ (Instr.ldBVx 0xA).assembly = "LD B, VA" ∧
    (Instr.ldVxMem 0x2).assembly = "LD V2, [I]" ∧ (Instr.drwVxVyN 0 1 1).assembly = "DRW V0, V1, 1" ∧
    (Instr.shrVxVy 1 0).assembly = "SHR V1, V0" := by decide

/-! ### Construction -/

/-- R42: the packed view, bit 0 vf_reset to bit 3 draw_clip. -/
theorem test_quirk_bits : Quirks.ofBits 0b0010 = ⟨false, true, false, false⟩ ∧
    Quirks.toBits ⟨false, false, true, true⟩ = 0b1100 := by decide

/-- Z1, R49: the first row of glyph 0, the last of glyph F, and the byte after the font. -/
theorem test_reset_memory : old.byteAt 0x000 = 0xF0 ∧ old.byteAt 0x04B = 0xF0 ∧
    old.byteAt 0x04F = 0x80 ∧ old.byteAt 0x050 = 0 ∧ old.byteAt 0x200 = 0 := by decide

/-- R44: the cause codes. -/
theorem test_cause_codes : [Halt.running, .fatal .programTooLarge, .fatal .stackOverflow,
    .fatal .stackUnderflow, .fatal .memoryOutOfRange, .fatal .fetchOutOfRange,
    .fatal .keyIndexOutOfRange].map Halt.code = [0, 1, 2, 3, 4, 5, 6] := by decide

/-! ### Register and ALU instructions -/

/-- A1 -/
theorem test_ldVxNn : after (exec (.ldVxNn 0xA 0x42) old) (fun t => (t.readV 0xA, t.pc)) =
    some (0x42, 0x202) := by decide

/-- A3: no carry. -/
theorem test_addVxNn :
    after (exec (.addVxNn 2 0x01) ((old.writeV 2 0xFF).writeV VF 0xAA)) (fun t => (t.readV 2, t.readV VF)) =
    some (0x00, 0xAA) := by decide

/-- A5 -/
theorem test_ldVxVy : after (exec (.ldVxVy 5 3) (old.writeV 3 0x42)) (fun t => (t.readV 5, t.readV 3)) =
    some (0x42, 0x42) := by decide

/-- A9: the flag is cleared after the result in legacy, VF is an ordinary destination in modern. -/
theorem test_orVxVy :
    after (exec (.orVxVy 0xF 1) ((old.writeV VF 0x30).writeV 1 0x03)) (fun t => t.readV VF) = some 0x00 ∧
    after (exec (.orVxVy 0xF 1) ((new.writeV VF 0x30).writeV 1 0x03)) (fun t => t.readV VF) = some 0x33 := by
  decide

/-- W10: AND in legacy and modern. -/
theorem test_andVxVy :
    after (exec (.andVxVy 0 1) (((old.writeV 0 0x0C).writeV 1 0x0A).writeV VF 7))
      (fun t => (t.readV 0, t.readV VF)) = some (0x08, 0) ∧
    after (exec (.andVxVy 0 1) (((new.writeV 0 0x0C).writeV 1 0x0A).writeV VF 7))
      (fun t => (t.readV 0, t.readV VF)) = some (0x08, 7) := by decide

/-- W10: XOR in legacy and modern. -/
theorem test_xorVxVy :
    after (exec (.xorVxVy 0 1) (((old.writeV 0 0x0C).writeV 1 0x0A).writeV VF 7))
      (fun t => (t.readV 0, t.readV VF)) = some (0x06, 0) ∧
    after (exec (.xorVxVy 0 1) (((new.writeV 0 0x0C).writeV 1 0x0A).writeV VF 7))
      (fun t => (t.readV 0, t.readV VF)) = some (0x06, 7) := by decide

/-- A13: the flag is written after the sum; W5: no carry at 255. -/
theorem test_addVxVy :
    after (exec (.addVxVy 0xF 1) ((old.writeV VF 0x80).writeV 1 0x90)) (fun t => t.readV VF) = some 1 ∧
    after (exec (.addVxVy 0 1) ((old.writeV 0 0x7F).writeV 1 0x80)) (fun t => (t.readV 0, t.readV VF)) =
      some (0xFF, 0) := by decide

/-- W6: equal operands borrow nothing, 1 - 2 borrows. -/
theorem test_subVxVy :
    after (exec (.subVxVy 0 1) ((old.writeV 0 5).writeV 1 5)) (fun t => (t.readV 0, t.readV VF)) =
      some (0, 1) ∧
    after (exec (.subVxVy 0 1) ((old.writeV 0 1).writeV 1 2)) (fun t => (t.readV 0, t.readV VF)) =
      some (0xFF, 0) := by decide

/-- A20, A21 -/
theorem test_subnVxVy :
    after (exec (.subnVxVy 0 1) ((old.writeV 0 1).writeV 1 3)) (fun t => (t.readV 0, t.readV VF)) =
      some (2, 1) ∧
    after (exec (.subnVxVy 0 1) ((old.writeV 0 2).writeV 1 1)) (fun t => (t.readV 0, t.readV VF)) =
      some (0xFF, 0) := by decide

/-- A23: modern shifts V1, legacy shifts V0. -/
theorem test_shrVxVy :
    after (exec (.shrVxVy 1 0) ((new.writeV 1 3).writeV 0 7)) (fun t => (t.readV 1, t.readV VF)) =
      some (1, 1) ∧
    after (exec (.shrVxVy 1 0) ((old.writeV 1 3).writeV 0 7)) (fun t => (t.readV 1, t.readV VF)) =
      some (3, 1) := by decide

/-- A30: modern shifts V0, legacy shifts V1. -/
theorem test_shlVxVy :
    after (exec (.shlVxVy 0 1) ((new.writeV 0 1).writeV 1 0x80)) (fun t => (t.readV 0, t.readV VF)) =
      some (2, 0) ∧
    after (exec (.shlVxVy 0 1) ((old.writeV 0 1).writeV 1 0x80)) (fun t => (t.readV 0, t.readV VF)) =
      some (0, 1) := by decide

/-- A32: with a mask of 0 the result is 0 whatever is drawn, and one byte is drawn. -/
theorem test_rndVxNn : ∃ t, exec (.rndVxNn 3 0x00) (old.writeV 3 9) = .next t ∧ t.readV 3 = 0 ∧
    t.draws = 1 := ⟨_, rfl, by simp, rfl⟩

/-! ### Control transfer -/

/-- B1, B2 -/
theorem test_seVxNn :
    after (exec (.seVxNn 0 5) ((old.writePc 0x206).writeV 0 5)) (fun t => t.pc) = some 0x20A ∧
    after (exec (.seVxNn 0 6) ((old.writePc 0x206).writeV 0 5)) (fun t => t.pc) = some 0x208 := by decide

/-- B3, B4 -/
theorem test_sneVxNn :
    after (exec (.sneVxNn 0 5) ((old.writePc 0x206).writeV 0 5)) (fun t => t.pc) = some 0x208 ∧
    after (exec (.sneVxNn 0 6) ((old.writePc 0x206).writeV 0 5)) (fun t => t.pc) = some 0x20A := by decide

/-- B5, B6 -/
theorem test_seVxVy :
    after (exec (.seVxVy 1 2) (((old.writePc 0x300).writeV 1 9).writeV 2 9)) (fun t => t.pc) =
      some 0x304 ∧
    after (exec (.seVxVy 1 2) (((old.writePc 0x300).writeV 1 9).writeV 2 8)) (fun t => t.pc) =
      some 0x302 := by decide

/-- B8, B9 -/
theorem test_sneVxVy :
    after (exec (.sneVxVy 1 2) (((old.writePc 0x300).writeV 1 9).writeV 2 8)) (fun t => t.pc) =
      some 0x304 ∧
    after (exec (.sneVxVy 1 2) (((old.writePc 0x300).writeV 1 9).writeV 2 9)) (fun t => t.pc) =
      some 0x302 := by decide

/-- W2 -/
theorem test_jpNnn : after (exec (.jpNnn 0x300) old) (fun t => t.pc) = some 0x300 := by decide

/-- B18: the target is not reduced to 12 bits. -/
theorem test_jpV0Nnn : after (exec (.jpV0Nnn 0xFFF) (old.writeV 0 0xFF)) (fun t => t.pc) =
    some 0x10FE := by decide

/-- B19 -/
theorem test_callNnn : after (exec (.callNnn 0x210) (old.writePc 0x204))
    (fun t => (t.stack[0], t.sp, t.pc)) = some (0x206, 1, 0x210) := by decide

/-- B20: StackOverflow, PC and SP as before. -/
theorem test_call_overflow : after (exec (.callNnn 0x210) ((old.writePc 0x204).writeSp 16))
    (fun t => (t.halt, t.pc, t.sp)) = some (.fatal .stackOverflow, 0x204, 16) := by decide

/-- B21: the entry is not cleared. -/
theorem test_ret : after (exec .ret (((old.writePc 0x210).writeSp 1).writeStack 0 0x206))
    (fun t => (t.sp, t.pc, t.stack[0])) = some (0, 0x206, 0x206) := by decide

/-- B22: StackUnderflow. -/
theorem test_ret_underflow : after (exec .ret old) (fun t => (t.halt, t.pc, t.sp)) =
    some (.fatal .stackUnderflow, 0x200, 0) := by decide

/-! ### Address register and memory transfer -/

/-- M2 -/
theorem test_ldINnn : after (exec (.ldINnn 0xFFF) (old.writeI 0xF123)) (fun t => t.i) = some 0x0FFF := by
  decide

/-- M5, M4: the sum wraps at 16 bits, and no flag is written. -/
theorem test_addIVx :
    after (exec (.addIVx 0) ((old.writeI 0xFFFF).writeV 0 2)) (fun t => t.i) = some 0x0001 ∧
    after (exec (.addIVx 0) ((old.writeI 0x0FFF).writeV 0 1)) (fun t => (t.i, t.readV VF)) =
      some (0x1000, 0) := by decide

/-- M7: only the low nibble counts; M8: the last glyph. -/
theorem test_ldFVx :
    after (exec (.ldFVx 4) (old.writeV 4 0x1A)) (fun t => t.i) = some 0x0032 ∧
    after (exec (.ldFVx 4) (old.writeV 4 0x0F)) (fun t => t.i) = some 0x004B := by decide

/-- M10 -/
theorem test_ldBVx : after (exec (.ldBVx 0) ((old.writeV 0 0xFF).writeI 0x300))
    (fun t => (t.byteAt 0x300, t.byteAt 0x301, t.byteAt 0x302, t.i)) = some (2, 5, 5, 0x300) := by decide

/-- M13: the range passes the end. -/
theorem test_ldBVx_out_of_range : after (exec (.ldBVx 0) ((old.writeV 0 7).writeI 0xFFE))
    (fun t => (t.halt, t.byteAt 0xFFE, t.pc)) = some (.fatal .memoryOutOfRange, 0, 0x200) := by decide

/-- M14 -/
theorem test_ldMemVx :
    after (exec (.ldMemVx 2) ((((old.writeV 0 1).writeV 1 2).writeV 2 3).writeI 0x300))
      (fun t => (t.byteAt 0x300, t.byteAt 0x302, t.byteAt 0x303, t.i)) = some (1, 3, 0, 0x303) ∧
    after (exec (.ldMemVx 2) ((((new.writeV 0 1).writeV 1 2).writeV 2 3).writeI 0x300))
      (fun t => (t.byteAt 0x301, t.i)) = some (2, 0x300) := by decide

/-- M17: nothing is written. -/
theorem test_ldMemVx_out_of_range : after (exec (.ldMemVx 0xF) ((old.writeV 0 9).writeI 0xFF1))
    (fun t => (t.halt, t.byteAt 0xFF1, t.i)) = some (.fatal .memoryOutOfRange, 0, 0xFF1) := by decide

/-- M18 -/
theorem test_ldVxMem :
    after (exec (.ldVxMem 2) ((old.writeBytes 0x300 [1, 2, 3]).writeI 0x300))
      (fun t => (t.readV 0, t.readV 1, t.readV 2, t.i)) = some (1, 2, 3, 0x303) ∧
    after (exec (.ldVxMem 2) (((new.writeBytes 0x300 [1, 2, 3, 4]).writeI 0x300).writeV 3 7))
      (fun t => (t.readV 2, t.readV 3, t.i)) = some (3, 7, 0x300) := by decide

/-- M20 -/
theorem test_ldVxMem_out_of_range : after (exec (.ldVxMem 0) ((old.writeI 0x1000).writeV 0 5))
    (fun t => (t.halt, t.readV 0, t.i)) = some (.fatal .memoryOutOfRange, 5, 0x1000) := by decide

/-! ### Display -/

/-- W7 -/
theorem test_cls : after (exec .cls (({ old with pix := .replicate 32 (.replicate 64 true) } : State).writeV VF 9))
    (fun t => (litColumns t 0, litColumns t 31, t.readV VF)) = some ([], [], 9) := by decide

/-- D4: the sprite wraps in modern and is clipped in legacy. -/
theorem test_drwVxVyN :
    after (exec (.drwVxVyN 0 1 1) (((new.writeV 0 0x3E).writeBytes 0x300 [0xC3]).writeI 0x300))
      (fun t => (litColumns t 0, t.readV VF)) = some ([4, 5, 62, 63], 0) ∧
    after (exec (.drwVxVyN 0 1 1) (((old.writeV 0 0x3E).writeBytes 0x300 [0xC3]).writeI 0x300))
      (fun t => (litColumns t 0, t.readV VF)) = some ([62, 63], 0) := by decide

/-- D10: a wrapped bit flips a set pixel in modern, a clipped bit does not touch it in legacy. -/
theorem test_drw_collision :
    after (exec (.drwVxVyN 0 1 1) ((((new.writeV 0 0x3E).writeBytes 0x300 [0xC3]).writeI 0x300).writePix
      (new.pix.setPixel 4 0 true))) (fun t => (litColumns t 0, t.readV VF)) = some ([5, 62, 63], 1) ∧
    after (exec (.drwVxVyN 0 1 1) ((((old.writeV 0 0x3E).writeBytes 0x300 [0xC3]).writeI 0x300).writePix
      (new.pix.setPixel 4 0 true))) (fun t => (litColumns t 0, t.readV VF)) = some ([4, 62, 63], 0) := by
  decide

/-- One more instruction run on what the machine answered. -/
def andThen (r : Result) (i : Instr) : Result :=
  match r with
  | .next t => exec i t
  | .fault f => .fault f
  | .refused q => .refused q

/-- D2: from a clear screen the second of two equal draws erases the sprite and collides. By hand from R211
and R215 (log 15): where the sprite's pixels were all set before, the second draw sets VF = 0. -/
theorem test_drw_twice :
    after (andThen (exec (.drwVxVyN 0 1 1) ((old.writeBytes 0x300 [0xF0]).writeI 0x300))
      (.drwVxVyN 0 1 1)) (fun t => (litColumns t 0, t.readV VF)) = some ([], 1) ∧
    after (andThen (exec (.drwVxVyN 0 1 1) (((old.writeBytes 0x300 [0x80]).writeI 0x300).writePix
      (old.pix.setPixel 0 0 true))) (.drwVxVyN 0 1 1)) (fun t => (litColumns t 0, t.readV VF)) =
      some ([0], 0) := by decide

/-! ### Keys and timers -/

/-- K1, K2 -/
theorem test_skpVx :
    after (exec (.skpVx 5) ((old.writeV 5 7).writeKey 7 true)) (fun t => t.pc) = some 0x204 ∧
    after (exec (.skpVx 5) (old.writeV 5 7)) (fun t => t.pc) = some 0x202 := by decide

/-- K3, K6 -/
theorem test_sknpVx :
    after (exec (.sknpVx 5) ((old.writeV 5 7).writeKey 7 true)) (fun t => t.pc) = some 0x202 ∧
    after (exec (.sknpVx 5) (old.writeV 5 0xFF)) (fun t => (t.halt, t.pc)) =
      some (.fatal .keyIndexOutOfRange, 0x200) := by decide

/-- K8 -/
theorem test_ldVxDt : after (exec (.ldVxDt 3) (old.writeDt 0x20)) (fun t => t.readV 3) = some 0x20 := by
  decide

/-- K9 -/
theorem test_ldDtVx : after (exec (.ldDtVx 0) (old.writeV 0 1)) (fun t => (t.dt, t.st)) = some (1, 0) := by
  decide

/-- K10 -/
theorem test_ldStVx : after (exec (.ldStVx 1) (old.writeV 1 2)) (fun t => (t.dt, readSound t)) =
    some (0, 2, true) := by decide

/-- K13 -/
theorem test_ldVxK : after (exec (.ldVxK 1) (((old.writePc 0x20A).writeKey 3 true).writeKey 9 true))
    (fun t => (t.readV 1, t.pc)) = some (3, 0x20C) := by decide

/-- K12 -/
theorem test_ldVxK_blocked : exec (.ldVxK 1) (old.writePc 0x20A) = .next (old.writePc 0x20A) := by rfl

/-! ### Steps -/

/-- Z2: reset memory at 0x200 is an unrecognised word. -/
theorem test_step_from_reset : after (step State.reset) (fun t => (t.diag, t.pc, t.started)) =
    some ([.unknownOpcode 0x200 0x0000], 0x202, true) := by decide

/-- B25: PC may be odd. -/
theorem test_step_odd_pc : after (step ((old.writePc 0x201).writeBytes 0x201 [0x13, 0x00]))
    (fun t => t.pc) = some 0x300 := by decide

/-- B24 and B16: the last word that can be fetched, and the first that cannot. -/
theorem test_step_fetch_edge :
    after (step ((old.writePc 0xFFE).writeBytes 0xFFE [0x12, 0x00])) (fun t => (t.pc, t.halt)) =
      some (0x200, .running) ∧
    after (step (old.writePc 0xFFF)) (fun t => (t.pc, t.halt)) =
      some (0xFFF, .fatal .fetchOutOfRange) := by decide

/-- W1, its first step, on the reset state itself. -/
theorem test_step_placed_word : after (step (State.reset.withFetchWord 16 0x6005))
    (fun t => (t.readV 0, t.pc)) = some (5, 0x202) := by decide

/-! ### Ticks and host operations -/

/-- T1 -/
theorem test_tick : after (tick ((old.writeBytes 0x200 [0x12, 0x00]).writeDt 2))
    (fun t => (t.dt, t.st, t.pc)) = some (1, 0, 0x200) := by decide

/-- T3: the decrement comes before the batch. -/
theorem test_tick_timer_order :
    after (tick (((State.construct (.withDefaultFont .legacy 1)).writeBytes 0x200 [0xF0, 0x15]).writeV 0 3))
      (fun t => t.dt) = some 3 := by decide

/-- T4: half a period is no tick. -/
theorem test_run_half : after (hostRun 500000000 (old.writeDt 2)) (fun t => (t.dt, t.sinceTick)) =
    some (2, 500000000) := by decide

/-- T5: a tenth of a second is one tick, and the rest of the time is discarded. -/
theorem test_run_no_catch_up :
    after (hostRun 6000000000 ((old.writeBytes 0x200 [0xF0, 0x0A]).writeDt 9))
      (fun t => (t.dt, t.sinceTick)) = some (8, 0) := by decide

/-- T12, T13 -/
theorem test_halted :
    after (tick { old.writeDt 5 with halt := .fatal .stackOverflow }) (fun t => t.dt) = some 5 ∧
    after (hostSetKey 3 true { old with halt := .fatal .stackOverflow })
      (fun t => (t.keyDown 3, t.halt)) = some (true, .fatal .stackOverflow) := by decide

/-- R331: the bytes of a short program at 0x200. -/
theorem test_load : after (hostLoad [0x60, 0x05] old)
    (fun t => (t.byteAt 0x200, t.byteAt 0x201, t.loaded, t.started)) = some (0x60, 0x05, true, false) := by
  decide

/-- R339, D28: a Run of half a period does no tick and starts nothing, and yet no Load is admitted after
it. -/
theorem test_load_after_run : after (hostRun 500000000 old)
    (fun t => (t.started, t.ran, t.admitsLoad)) = some (false, true, false) := by decide

/-- T10, T14: a second Load and key 16 are refused. -/
theorem test_refused : hostLoad [] old.markLoaded = .refused .loadNotAdmitted ∧
    hostSetKey 16 true old = .refused .setKeyIndexRefused := ⟨rfl, rfl⟩

/-! ### Witnesses: a state and operands that meet the hypotheses of an obligation, at the edges of every
clause. Obligations with no hypotheses have none. -/

/-- A legacy engine whose next word is `w`. -/
abbrev about (w : Nat) : State := old.withFetchWord 16 w

/-- An engine with every register 0xFF. -/
abbrev full : State := { old with v := .replicate 16 0xFF }

/-- The invariant holds of both engines (Params.WellFormed is decidable, the rest is at reset values). -/
theorem old_inv : old.Inv :=
  ⟨Memory.wf_nil _, by decide, by decide, by decide, by decide, by decide, by decide,
    (by intro c h; cases h), by decide, by decide, by decide⟩

theorem witness_ConstructionGivesResetValues :
    ∃ p : Params, (0 < p.fontBase.toNat ∧ p.fontBase.toNat + 80 ≤ 0xFFF) :=
  ⟨{ old.params with fontBase := 1 }, by decide⟩

theorem witness_InvariantHoldsAtConstruction :
    ∃ p : Params, p.WellFormed ∧ p.fontBase.toNat + 80 = 0x200 :=
  ⟨{ Params.withDefaultFont .legacy 1 with fontBase := 0x1B0 }, by decide⟩

theorem witness_EncodeOfDecode : ∃ w i, decode w = .instr i := ⟨0xFF65, .ldVxMem 0xF, by decide⟩

theorem witness_UnrecognisedWordsExactly :
    decode 0x0FFF = .unknown 0x0FFF ∧ decode 0x5121 = .unknown 0x5121 ∧ decode 0x9FFF = .unknown 0x9FFF ∧
    decode 0x800F = .unknown 0x800F ∧ decode 0xE0A0 = .unknown 0xE0A0 ∧ decode 0xF066 = .unknown 0xF066 := by
  decide

theorem witness_StepRunsTheDecodedInstruction : ∃ (s : State) (i : Instr), s.halt = .running ∧
    s.pc.toNat = 0xFFE ∧ decode (s.byteAt s.pc.toNat ++ s.byteAt (s.pc.toNat + 1)) = .instr i :=
  ⟨(old.writePc 0xFFE).writeBytes 0xFFE [0x12, 0x00], .jpNnn 0x200, by decide⟩

theorem witness_PlacedWordRunsNext : ∃ (s : State) (w : Word) (i : Instr), Memory.wf s.params s.mem ∧
    s.fetchable = false ∧ decode w = .instr i :=
  ⟨old.writePc 0xFFF, 0xD125, .drwVxVyN 1 2 5, by decide⟩

theorem witness_UnknownWordIsLoggedAndAdvances : ∃ (s : State) (u : Word), s.halt = .running ∧
    s.pc.toNat ≤ 0xFFE ∧ decode (s.byteAt s.pc.toNat ++ s.byteAt (s.pc.toNat + 1)) = .unknown u :=
  ⟨about 0x5121, 0x5121, by decide⟩

theorem witness_FetchPastTheEndHalts : ∃ s : State, s.halt = .running ∧ s.pc.toNat = 0xFFF :=
  ⟨old.writePc 0xFFF, by decide⟩

theorem witness_HaltedEngineStaysHalted : ∃ s : State, s.halt ≠ .running :=
  ⟨{ old with halt := .fatal .stackOverflow }, by decide⟩

theorem witness_BitwiseClearsFlagOnlyWhenLegacy : ∃ (x : RegId) (s t : State), x = VF ∧
    s.params.quirks.vfReset = true ∧ t.params.quirks.vfReset = false :=
  ⟨VF, old, new, by decide⟩

theorem witness_AddSetsCarry : ∃ (x y : RegId) (s t : State), x ≠ VF ∧
    (s.readV x).toNat + (s.readV y).toNat = 256 ∧ (t.readV x).toNat + (t.readV y).toNat = 255 :=
  ⟨0, 1, (old.writeV 0 0xFF).writeV 1 1, old.writeV 0 0xFF, by decide⟩

theorem witness_SubSetsNoBorrow : ∃ (x y : RegId) (s t : State), x ≠ VF ∧ s.readV x = s.readV y ∧
    (t.readV x).toNat + 1 = (t.readV y).toNat :=
  ⟨0, 1, old, old.writeV 1 1, by decide⟩

theorem witness_SubnSetsNoBorrow : ∃ (x y : RegId) (s t : State), x ≠ VF ∧ s.readV x = s.readV y ∧
    (t.readV y).toNat + 1 = (t.readV x).toNat :=
  ⟨0, 1, old, old.writeV 0 1, by decide⟩

theorem witness_SkipsCompareRegisterWithByte : ∃ (x : RegId) (nn : Byte) (s t : State),
    s.readV x = nn ∧ t.readV x ≠ nn :=
  ⟨0xF, 0, old, full, by decide⟩

theorem witness_SkipsCompareTwoRegisters : ∃ (x y : RegId) (s t : State),
    s.readV x = s.readV y ∧ t.readV x ≠ t.readV y :=
  ⟨0, 0xF, old, old.writeV 0xF 1, by decide⟩

theorem witness_CallPushesReturnAddress : ∃ (j k : Fin 16) (s t : State),
    (j.val = 0 ∧ s.sp.toNat = j.val) ∧ k.val = 15 ∧ t.sp.toNat = k.val :=
  ⟨0, 15, old, old.writeSp 15, by decide⟩

theorem witness_ReturnPopsAddress : ∃ (j k : Fin 16) (s t u : State),
    (j.val = 0 ∧ s.sp.toNat = j.val + 1) ∧ (k.val = 15 ∧ t.sp.toNat = k.val + 1) ∧ u.sp = 0 :=
  ⟨0, 15, old.writeSp 1, old.writeSp 16, old, by decide⟩

theorem witness_StackOverflowAndUnderflowHalt : ∃ s t : State, s.sp = 16 ∧ t.sp = 0 :=
  ⟨old.writeSp 16, old, by decide⟩

theorem witness_IllegalStackPointerStops : ∃ s : State, s.sp.toNat = 17 := ⟨old.writeSp 17, by decide⟩

theorem witness_CallThenReturnResumes : ∃ s : State, s.sp.toNat = 15 := ⟨old.writeSp 15, by decide⟩

theorem witness_BcdStoresThreeDigits : ∃ s : State, Memory.wf s.params s.mem ∧ s.i.toNat + 2 = 0xFFF :=
  ⟨old.writeI 0xFFD, by decide⟩

theorem witness_StoreBlockWritesRegisters : ∃ (x : RegId) (s t : State), Memory.wf s.params s.mem ∧
    s.i.toNat + x.toNat = 0xFFF ∧ s.params.quirks.memIncI = true ∧
    Memory.wf t.params t.mem ∧ t.i.toNat + x.toNat = 0x1000 :=
  ⟨0xF, old.writeI 0xFF0, old.writeI 0xFF1, by decide⟩

theorem witness_LoadBlockReadsRegisters : ∃ (x : RegId) (s t : State),
    s.i.toNat + x.toNat = 0xFFF ∧ s.params.quirks.memIncI = true ∧ t.i.toNat + x.toNat = 0x1000 :=
  ⟨0xF, old.writeI 0xFF0, old.writeI 0xFF1, by decide⟩

theorem witness_AccessPastTheEndHalts : ∃ (x : RegId) (n : BitVec 4) (s t u : State),
    s.i.toNat + 2 = 0x1000 ∧ t.i.toNat + x.toNat = 0x1000 ∧ n ≠ 0 ∧ u.i.toNat + n.toNat = 0x1001 :=
  ⟨0xF, 1, old.writeI 0xFFE, old.writeI 0xFF1, old.writeI 0x1000, by decide⟩

theorem witness_StoreThenLoadRestoresRegisters : ∃ (x : RegId) (s t u : State),
    Memory.wf s.params s.mem ∧ s.i.toNat + x.toNat = 0xFFF ∧ exec (.ldMemVx x) s = .next t ∧
    u.mem = t.mem ∧ u.params = t.params ∧ u.i = s.i :=
  ⟨0, full.writeI 0xFFF, _, old.writeI 0xFFF |>.writeBytes 0xFFF [0xFF], by decide, by decide, rfl,
    by decide, by decide, by decide⟩

theorem witness_StoredBytesAreFetched : ∃ (x z : RegId) (s t u : State) (i : Instr),
    Memory.wf s.params s.mem ∧ s.i.toNat + x.toNat = 0xFFF ∧ z.toNat + 1 = x.toNat ∧
    exec (.ldMemVx x) s = .next t ∧ u.mem = t.mem ∧ u.params = t.params ∧ u.halt = .running ∧
    u.pc.toNat = s.i.toNat + z.toNat ∧ decode (s.readV z ++ s.readV (z + 1)) = .instr i :=
  ⟨1, 0, ((old.writeV 0 0x12).writeV 1 0x00).writeI 0xFFE, _,
    (old.writeBytes 0xFFE [0x12, 0x00]).writePc 0xFFE, .jpNnn 0x200, by decide, by decide, by decide, rfl,
    by decide, by decide, by decide, by decide, by decide⟩

/-- The pixel of an 8 by 1 sprite at the edge that wraps: column 7 of a sprite at x = 57 is column 0. -/
theorem witness_DrawInvertsCoveredPixels : ∃ (x y : RegId) (n : BitVec 4) (s : State), n ≠ 0 ∧
    s.i.toNat + n.toNat = 0x1000 ∧ (∃ px py, spriteCovers s x y n px py ∧ s.pix.pixel px py = true) ∧
    (∃ t : State, ¬ ∃ px py, spriteCovers t x y n px py ∧ t.pix.pixel px py = true) :=
  ⟨0, 1, 1, (((new.writeBytes 0xFFF [0x01]).writeI 0xFFF).writeV 0 57).writePix (new.pix.setPixel 0 0 true),
    by decide, by decide, ⟨0, 0, ⟨0, 7, by decide⟩, by decide⟩, old, by
      rintro ⟨px, py, -, h⟩
      simp [Display.pixel, State.construct] at h⟩

theorem witness_DrawTwiceRestoresPixels : ∃ (x y : RegId) (n : BitVec 4) (s t u : State), x ≠ VF ∧
    y ≠ VF ∧ n ≠ 0 ∧ s.i.toNat + n.toNat = 0x1000 ∧
    (∃ px py, spriteCovers s x y n px py ∧ s.pix.pixel px py = false) ∧
    exec (.drwVxVyN x y n) s = .next t ∧ t.readV VF = 0 ∧
    u.i.toNat + n.toNat ≤ 0x1000 ∧
    (¬ ∃ px py, spriteCovers u x y n px py ∧ u.pix.pixel px py = false) :=
  ⟨0, 1, 1, (old.writeBytes 0xFFF [0x80]).writeI 0xFFF, _,
    { old with pix := .replicate 32 (.replicate 64 true) },
    by decide, by decide, by decide, by decide, ⟨0, 0, ⟨0, 0, by decide⟩, by decide⟩, rfl, by decide,
    by decide, by
      rintro ⟨px, py, -, h⟩
      simp [Display.pixel] at h⟩

theorem witness_SecondDrawAlwaysCollides : ∃ (x y : RegId) (n : BitVec 4) (s t u : State), x ≠ VF ∧
    y ≠ VF ∧ exec (.drwVxVyN x y n) s = .next t ∧ exec (.drwVxVyN x y n) t = .next u ∧
    t.halt = .running ∧ ∃ px py, spriteCovers s x y n px py :=
  ⟨0, 1, 1, old, _, _, by decide, by decide, rfl, rfl, rfl, 0, 0, 0, 0, by decide⟩

theorem witness_KeySkipsTestOneKey : ∃ (x : RegId) (s t u : State),
    (s.readV x).toNat = (15 : Fin 16).val ∧ s.keyDown 15 = true ∧
    (t.readV x).toNat = (15 : Fin 16).val ∧ t.keyDown 15 = false ∧ (u.readV x).toNat = 0x10 :=
  ⟨5, (old.writeV 5 15).writeKey 15 true, old.writeV 5 15, old.writeV 5 16, by decide⟩

theorem witness_KeyWaitRecordsLowestKey : ∃ (s t : State) (k : Fin 16),
    s.keyDown k = true ∧ (∀ j : Fin 16, j < k → s.keyDown j = false) ∧ s.keyDown 9 = true ∧
    ∀ j, t.keyDown j = false :=
  ⟨(old.writeKey 3 true).writeKey 9 true, old, 3, by decide⟩

theorem witness_BlockedStepIsKeyWait : ∃ s t : State, step s = .next t ∧ stepOutcome s t = .blocked :=
  ⟨about 0xFF0A, _, rfl, by decide⟩

theorem witness_TickCountsDownThenRunsBatch : ∃ s : State, s.halt = .running ∧ s.dt = 0 ∧ s.st = 0xFF :=
  ⟨old.writeSt 0xFF, by decide⟩

theorem witness_RunTicksAtMostOnce : ∃ (d e : Duration) (s : State),
    s.sinceTick + d + 1 = Config.tickPeriod ∧ s.sinceTick + e = Config.tickPeriod :=
  ⟨999999999, 1000000000, old, by decide⟩

theorem witness_LoadCopiesTheProgram : ∃ (b c : List Byte) (s t : State), Memory.wf s.params s.mem ∧
    s.started = false ∧ s.ran = false ∧ s.loaded = false ∧ s.halt = .running ∧ b.length = 3584 ∧
    c.length = 3585 ∧ Memory.wf t.params t.mem ∧ t.started = false ∧ t.ran = true :=
  ⟨.replicate 3584 1, .replicate 3585 1, old, old.markRan, Memory.wf_nil _, rfl, rfl, rfl, rfl,
    List.length_replicate, List.length_replicate, Memory.wf_nil _, rfl, rfl⟩

theorem witness_SetKeyWritesOneKey : (15 : Nat) = (15 : Fin 16).val ∧ (16 : Nat) ≤ 16 := by decide

theorem witness_RegistersWrittenOnlyByTheirWriters : ∃ (i : Instr) (s t : State) (z : RegId),
    exec i s = .next t ∧ i.isDestination z = false ∧ z = VF ∧ i.writesFlag s.params.quirks = false :=
  ⟨.orVxVy 0 1, new, _, VF, rfl, by decide, by decide, by decide⟩

theorem witness_StackAndTimersWrittenOnlyByTheirWriters : ∃ (i : Instr) (s t : State),
    exec i s = .next t ∧ (∀ nnn, i ≠ .callNnn nnn) ∧ i ≠ .ret ∧ (∀ x, i ≠ .ldDtVx x) ∧
    ∀ x, i ≠ .ldStVx x :=
  ⟨.cls, old, _, rfl, by simp, by simp, by simp, by simp⟩

theorem witness_OtherStateWrittenOnlyByItsWriters : ∃ (i : Instr) (s t : State), exec i s = .next t ∧
    (∀ x, i ≠ .ldBVx x) ∧ (∀ x, i ≠ .ldMemVx x) ∧ i ≠ .cls ∧ (∀ x y n, i ≠ .drwVxVyN x y n) ∧
    (∀ nnn, i ≠ .ldINnn nnn) ∧ (∀ x, i ≠ .addIVx x) ∧ (∀ x, i ≠ .ldFVx x) ∧
    s.params.quirks.memIncI = false ∧ i = .ldVxMem 0xF :=
  ⟨.ldVxMem 0xF, new, _, rfl, by simp, by simp, by simp, by simp, by simp, by simp, by simp, rfl, rfl⟩

theorem witness_InstructionFaultsArePrecise : ∃ (i : Instr) (s t : State), exec i s = .next t ∧
    t.halt ≠ s.halt :=
  ⟨.ret, old, _, rfl, by decide⟩

theorem witness_StepFaultsArePrecise : ∃ s t : State, step s = .next t ∧ s.halt = .running ∧
    t.halt ≠ .running :=
  ⟨about 0x00EE, _, rfl, by decide, by decide⟩

theorem witness_PcFollowsTheFlowClass : ∃ (i j k : Instr) (s t u v : State),
    exec i s = .next t ∧ exec j s = .next u ∧ exec k s = .next v ∧ s.halt = .running ∧
    t.halt = .running ∧ u.halt = .running ∧ v.halt = .running ∧ i.flow = .advance ∧
    j.flow = .conditionalSkip ∧ k.flow = .blockingWait :=
  ⟨.cls, .seVxNn 0 0, .ldVxK 0, old, _, _, _, rfl, rfl, rfl, rfl, rfl, rfl, rfl, rfl, rfl, rfl⟩

theorem witness_StepKeepsTheInvariant : ∃ s t : State, s.Inv ∧ step s = .next t :=
  ⟨old, _, old_inv, rfl⟩

theorem witness_HostMovesKeepTheInvariant : ∃ (m : HostMove) (s t : State), s.Inv ∧
    hostMove m s = .next t :=
  ⟨.load [0x12, 0x00], old, _, old_inv, rfl⟩

theorem witness_StepAndRunAlwaysAnswer : ∃ s : State, s.Inv := ⟨old, old_inv⟩

end Sys2Proof.Tests
end

section
/-! PROOFS. The register and ALU instructions (spec/41_register_alu.md): what each flag is as a number,
what the shared answers of these instructions are, and the statements of the family. -/

namespace Sys2Proof.Machine

open Sys2Proof.Claims

/-! ### The flags and the shift source as numbers -/

@[simp] theorem toNat_flagByte (c : Bool) : (flagByte c).toNat = if c then 1 else 0 := by
  cases c <;> rfl

/-- The carry is 1 exactly when the sum is above 255 (R107). -/
theorem toNat_carryFlag (a b : Byte) :
    (carryFlag a b).toNat = if 255 < a.toNat + b.toNat then 1 else 0 := by
  simp [carryFlag]

/-- No-borrow is 1 exactly when nothing is borrowed (R108, R113). -/
theorem toNat_noBorrowFlag (a b : Byte) :
    (noBorrowFlag a b).toNat = if b.toNat ≤ a.toNat then 1 else 0 := by
  simp [noBorrowFlag]

/-- A difference of bytes as a number: 256 is borrowed and reduced away again (R108). -/
theorem toNat_byte_sub (a b : Byte) : (a - b).toNat = (256 + a.toNat - b.toNat) % 256 := by
  have hb := b.isLt
  rw [BitVec.toNat_sub]
  congr 1
  omega

/-- The bit a right shift drops is the remainder by 2 (R110). -/
theorem toNat_shiftedOutRight (a : Byte) : (shiftedOutRight a).toNat = a.toNat % 2 := by
  simp [shiftedOutRight, Nat.and_one_is_mod]

/-- The bit a left shift drops is the quotient by 128 (R111). -/
theorem toNat_shiftedOutLeft (a : Byte) : (shiftedOutLeft a).toNat = a.toNat / 128 := by
  have ha := a.isLt
  simp only [shiftedOutLeft, BitVec.toNat_and, BitVec.toNat_ushiftRight, Nat.shiftRight_eq_div_pow,
    BitVec.toNat_ofNat, BitVec.ofNat_eq_ofNat, Nat.reducePow, Nat.reduceMod, Nat.and_one_is_mod]
  omega

/-- The value a shift works on is the one the statement names (R110, R111). -/
theorem State.toNat_shiftSource (s : State) (x y : RegId) :
    (s.shiftSource x y).toNat = shifted x y s := by
  unfold shiftSource shifted
  split <;> rfl

/-! ### Clearing VF after a bitwise operation -/

/-- Under `vf_reset` VF is written with 0, and without it VF keeps its value (R104). -/
@[simp] theorem State.readV_clearFlagIfLegacy (s : State) (z : RegId) :
    s.clearFlagIfLegacy.readV z =
      if z = VF ∧ s.params.quirks.vfReset = true then 0 else s.readV z := by
  by_cases hz : z = VF
  · subst hz
    simp [clearFlagIfLegacy]
  · simp [clearFlagIfLegacy, hz]

/-- Clearing the flag changes VF only, and only under `vf_reset` (R104). -/
theorem State.clearFlagIfLegacy_sameExcept (s : State) :
    SameExcept (fun p => p = .reg VF ∧ s.params.quirks.vfReset = true) s s.clearFlagIfLegacy := by
  intro p hp
  cases p with
  | reg z =>
    have hz : ¬ (z = VF ∧ s.params.quirks.vfReset = true) := fun h => hp (h.imp (congrArg Part.reg) id)
    exact (s.readV_clearFlagIfLegacy z).trans (if_neg hz)
  | _ => rfl

/-! ### The three shapes of an answer -/

variable {i : Instr} {x : RegId} {r f : Byte} {s : State}

/-- An instruction that writes one register and advances. -/
theorem writesRegister_of_exec (h : exec i s = .next (s.writeV x r).advance) :
    WritesRegister i x r s := by
  refine ⟨_, h, by simp, State.advance_advances _, ?_⟩
  exact ((s.writeV_sameExcept x r).trans (State.writePc_sameExcept _ _)).mono fun _ => Or.symm

/-- An instruction that writes a result and then the flag (R100). -/
theorem writesRegisterAndFlag_of_exec (h : exec i s = s.resultThenFlag x r f) :
    WritesRegisterAndFlag i x r.toNat f.toNat s := by
  obtain ⟨t, ht, hflag, hres, hadv, hframe⟩ := s.resultThenFlag_next x r f
  exact ⟨t, h.trans ht, fun hx => by rw [hres hx], by rw [hflag], hadv,
    hframe.mono fun _ => Or.symm⟩

/-- A bitwise instruction: the result, then VF cleared under `vf_reset` (R104). -/
theorem writesBitwise_of_exec (h : exec i s = s.bitwiseResult x r) : WritesBitwise i x r s := by
  refine ⟨_, h, fun hx => ?_, fun hq => ?_, fun hq hx => ?_, State.advance_advances _, ?_⟩
  · simp [hx]
  · simp [hq]
  · simp [hq, hx]
  · exact (((s.writeV_sameExcept x r).trans (State.clearFlagIfLegacy_sameExcept _)).trans
      (State.writePc_sameExcept _ _)).mono fun _ => Or.symm

end Sys2Proof.Machine

namespace Sys2Proof.Proofs

open Sys2Proof.Machine Sys2Proof.Claims

/-- Settles O12: both loads write one register and advance. -/
theorem loadsWriteOneRegister : Obligations.LoadsWriteOneRegister :=
  fun _ _ _ _ => ⟨writesRegister_of_exec rfl, writesRegister_of_exec rfl⟩

/-- Settles O13: 7XNN writes one register and advances, and byte addition is addition modulo 256. -/
theorem addImmediateWrapsWithoutFlag : Obligations.AddImmediateWrapsWithoutFlag := by
  intro x nn s
  have h : WritesRegister (.addVxNn x nn) x (s.readV x + nn) s := writesRegister_of_exec rfl
  obtain ⟨t, ht, hres, hadv, hframe⟩ := h
  exact ⟨t, ht, by rw [hres, BitVec.toNat_add], hadv, hframe⟩

/-- Settles O14: the three operations answer `bitwiseResult`. -/
theorem bitwiseClearsFlagOnlyWhenLegacy : Obligations.BitwiseClearsFlagOnlyWhenLegacy :=
  fun _ _ _ => ⟨writesBitwise_of_exec rfl, writesBitwise_of_exec rfl, writesBitwise_of_exec rfl⟩

/-- Settles O15: a result and then the carry, read as numbers. -/
theorem addSetsCarry : Obligations.AddSetsCarry := by
  intro x y s
  have h : WritesRegisterAndFlag (.addVxVy x y) x (s.readV x + s.readV y).toNat
    (carryFlag (s.readV x) (s.readV y)).toNat s := writesRegisterAndFlag_of_exec rfl
  rwa [BitVec.toNat_add, toNat_carryFlag] at h

/-- Settles O16: a result and then no-borrow, read as numbers. -/
theorem subSetsNoBorrow : Obligations.SubSetsNoBorrow := by
  intro x y s
  have h : WritesRegisterAndFlag (.subVxVy x y) x (s.readV x - s.readV y).toNat
    (noBorrowFlag (s.readV x) (s.readV y)).toNat s := writesRegisterAndFlag_of_exec rfl
  rwa [toNat_byte_sub, toNat_noBorrowFlag] at h

/-- Settles O18: a shift by 1 halves or doubles the source, and the bit shifted out is its remainder by
2 or its quotient by 128. -/
theorem shiftsMoveOneBitIntoFlag : Obligations.ShiftsMoveOneBitIntoFlag := by
  intro x y s
  constructor
  · have h : WritesRegisterAndFlag (.shrVxVy x y) x (s.shiftSource x y >>> 1).toNat
      (shiftedOutRight (s.shiftSource x y)).toNat s := writesRegisterAndFlag_of_exec rfl
    rwa [BitVec.toNat_ushiftRight, Nat.shiftRight_eq_div_pow, toNat_shiftedOutRight,
      s.toNat_shiftSource] at h
  · have h : WritesRegisterAndFlag (.shlVxVy x y) x (s.shiftSource x y <<< 1).toNat
      (shiftedOutLeft (s.shiftSource x y)).toNat s := writesRegisterAndFlag_of_exec rfl
    rwa [BitVec.toNat_shiftLeft, Nat.shiftLeft_eq, toNat_shiftedOutLeft, s.toNat_shiftSource] at h

end Sys2Proof.Proofs
end

section
/-! PROOFS. The control transfer instructions (spec/42_control_flow.md): what a skip and a fatal error
answer, what a return pops, and the statements of the family. -/

namespace Sys2Proof.Machine

open Sys2Proof.Claims

/-- A 12-bit address keeps its value when it is extended to a word (R84, R86). -/
@[simp] theorem toNat_extendAddr (nnn : Addr) : (extendAddr nnn).toNat = nnn.toNat :=
  BitVec.toNat_setWidth_of_le (by decide)

/-! ### The two shapes of an answer -/

variable {i : Instr} {s : State}

/-- An instruction that answers `skipIf` skips when the predicate its bit decides holds (R19). -/
theorem skipsWhen_of_exec {p : Prop} {b : Bool} (hb : b = true ↔ p)
    (h : exec i s = .next (s.skipIf b)) : SkipsWhen p i s := by
  refine ⟨_, h, fun hp => ?_, fun hp => ?_, State.writePc_sameExcept _ _⟩
  · rw [hb.2 hp]
    exact s.skipIf_true
  · rw [Bool.eq_false_iff.2 (mt hb.1 hp)]
    exact s.skipIf_false

/-- An instruction that raises a fatal error halts with its cause (R300). -/
theorem haltsWith_of_exec {c : Cause} (h : exec i s = s.raiseFatal c) : HaltsWith c i s :=
  ⟨_, h, rfl, s.halt_sameExcept _⟩

/-! ### Returning -/

/-- Counting SP down from `k + 1` gives `k`. -/
theorem State.toNat_sp_sub_one {k : Nat} (h : s.sp.toNat = k + 1) : (s.sp - 1).toNat = k := by
  bv_omega

/-- On an empty stack RET raises StackUnderflow (R148). -/
theorem execRet_of_empty (h : s.sp = 0) : execRet s = s.raiseFatal .stackUnderflow :=
  if_pos h

/-- With an entry on the stack RET counts SP down and jumps to the entry (R148). -/
theorem execRet_of_nonempty {k : Fin 16} (h : s.sp.toNat = k.val + 1) :
    execRet s = .next ((s.writeSp (s.sp - 1)).writePc s.stack[k.val]) := by
  have hne : s.sp ≠ 0 := by bv_omega
  have hk : (s.sp - 1).toNat = k.val := State.toNat_sp_sub_one h
  simp only [execRet, if_neg hne, hk, k.isLt, dite_true]

end Sys2Proof.Machine

namespace Sys2Proof.Proofs

open Sys2Proof.Machine Sys2Proof.Claims

/-- Settles O20: both answer `skipIf` of a comparison with the byte. -/
theorem skipsCompareRegisterWithByte : Obligations.SkipsCompareRegisterWithByte :=
  fun _ _ _ => ⟨skipsWhen_of_exec beq_iff_eq rfl, skipsWhen_of_exec bne_iff_ne rfl⟩

/-- Settles O21: both answer `skipIf` of a comparison of the registers. -/
theorem skipsCompareTwoRegisters : Obligations.SkipsCompareTwoRegisters :=
  fun _ _ _ => ⟨skipsWhen_of_exec beq_iff_eq rfl, skipsWhen_of_exec bne_iff_ne rfl⟩

/-- Settles O22: PC is written with the extended address, and nothing else is. -/
theorem jumpSetsPc : Obligations.JumpSetsPc :=
  fun nnn s => ⟨_, rfl, toNat_extendAddr nnn, s.writePc_sameExcept _⟩

/-- Settles O25: an entry is popped by the two writes of SP and PC, and an empty stack is fatal. -/
theorem returnPopsAddress : Obligations.ReturnPopsAddress := by
  intro s
  refine ⟨fun k hk => ?_, fun h => haltsWith_of_exec (execRet_of_empty h)⟩
  exact ⟨_, execRet_of_nonempty hk, State.toNat_sp_sub_one hk, rfl,
    ((s.writeSp_sameExcept _).trans (State.writePc_sameExcept _ _)).mono fun _ => Or.symm⟩

end Sys2Proof.Proofs
end

section
/-! PROOFS. The memory transfer instructions (spec/43_memory_transfer.md): the range check of a block
transfer, what the two block transfers share, and the statements of the family. -/

namespace Sys2Proof.Machine

variable {s u : State} {x : RegId}

/-- Advancing changes no part but PC (R19). -/
theorem State.advance_sameExcept (s : State) : SameExcept (fun p => p = .pc) s s.advance :=
  s.writePc_sameExcept _

/-- The range check of a block transfer of `0..=x` at address `a` (R63, R185, R186). -/
theorem accessInRange_blockLength {a : Nat} :
    accessInRange a (blockLength x) = true ↔ a + x.toNat ≤ 0xFFF := by
  rw [accessInRange_iff, blockLength]
  omega

/-! ### FX55 and FX65 in range and out of range -/

/-- FX55 in range stores the register block, then moves I and PC (R185). -/
theorem execLdMemVx_of_le (h : s.i.toNat + x.toNat ≤ 0xFFF) :
    execLdMemVx x s =
      .next ((s.writeBytes s.i.toNat (s.registerBlock x)).bumpIIfLegacy x).advance :=
  if_pos (accessInRange_blockLength.2 h)

/-- FX55 past 0xFFF raises MemoryOutOfRange (R63, R185). -/
theorem execLdMemVx_of_gt (h : 0xFFF < s.i.toNat + x.toNat) :
    execLdMemVx x s = s.raiseFatal .memoryOutOfRange :=
  if_neg (mt accessInRange_blockLength.1 (Nat.not_le.2 h))

/-- FX65 in range loads the register block, then moves I and PC (R186). -/
theorem execLdVxMem_of_le (h : s.i.toNat + x.toNat ≤ 0xFFF) :
    execLdVxMem x s = .next ((s.loadBlock x).bumpIIfLegacy x).advance :=
  if_pos (accessInRange_blockLength.2 h)

/-- FX65 past 0xFFF raises MemoryOutOfRange (R63, R186). -/
theorem execLdVxMem_of_gt (h : 0xFFF < s.i.toNat + x.toNat) :
    execLdVxMem x s = s.raiseFatal .memoryOutOfRange :=
  if_neg (mt accessInRange_blockLength.1 (Nat.not_le.2 h))

/-! ### What a block transfer leaves in I, in memory and in the frame -/

/-- Under `mem_inc_i` a block transfer moves I past the block (R185, R186). -/
theorem State.toNat_i_bumpIIfLegacy (h : s.params.quirks.memIncI = true) :
    (s.bumpIIfLegacy x).i.toNat = (s.i.toNat + x.toNat + 1) % 2 ^ 16 := by
  simp [State.bumpIIfLegacy, blockLength, h, BitVec.toNat_add, Nat.add_assoc]

/-- A stored register is the byte at its place in the block (R185). -/
theorem State.byteAt_writeBytes_registerBlock (hm : s.mem.Sorted) (a : Nat) {z : RegId}
    (hz : z.toNat ≤ x.toNat) :
    (s.writeBytes a (s.registerBlock x)).byteAt (a + z.toNat) = s.readV z := by
  have hin : a ≤ a + z.toNat ∧ a + z.toNat - a < (s.registerBlock x).length := by
    rw [State.length_registerBlock]
    omega
  rw [State.byteAt_writeBytes hm, dif_pos hin]
  simp only [Nat.add_sub_cancel_left, State.getElem_registerBlock]

/-- Storing the register block changes no byte outside the block (R185). -/
theorem State.writeBytes_registerBlock_sameExcept (hm : s.mem.Sorted) (a : Nat) (x : RegId) :
    SameExcept (fun p => ∃ c, p = .memByte c ∧ a ≤ c ∧ c ≤ a + x.toNat) s
      (s.writeBytes a (s.registerBlock x)) := by
  refine (s.writeBytes_sameExcept hm a _).mono ?_
  rintro _ ⟨c, rfl, hac, hc⟩
  rw [State.length_registerBlock] at hc
  exact ⟨c, rfl, hac, by omega⟩

/-- The closing moves of I and PC add only I, under `mem_inc_i`, and PC to what a block changed (R185,
R186). -/
theorem SameExcept.bumpIIfLegacy_advance {changed : Part → Prop} (h : SameExcept changed s u)
    (hp : u.params = s.params) (x : RegId) :
    SameExcept (fun p => p = .pc ∨ (p = .i ∧ s.params.quirks.memIncI = true) ∨ changed p) s
      (u.bumpIIfLegacy x).advance := by
  have hu := (h.trans (u.bumpIIfLegacy_sameExcept x)).trans (State.advance_sameExcept _)
  rw [hp] at hu
  exact hu.mono fun _ => Or.symm ∘ Or.imp_left Or.symm

end Sys2Proof.Machine

namespace Sys2Proof.Proofs

open Sys2Proof.Machine Sys2Proof.Claims

/-- Settles O29: I is written with the extended address, and PC advances. -/
theorem loadAddressRegister : Obligations.LoadAddressRegister :=
  fun nnn s => ⟨_, rfl, toNat_extendAddr nnn, State.advance_advances _,
    ((s.writeI_sameExcept _).trans (State.advance_sameExcept _)).mono fun _ => Or.symm⟩

/-- Settles O33: in range the register block is written at I, past 0xFFF the range check fails. -/
theorem storeBlockWritesRegisters : Obligations.StoreBlockWritesRegisters := by
  rintro x s ⟨hm, -⟩
  refine ⟨fun h => ?_, fun h => haltsWith_of_exec (execLdMemVx_of_gt h)⟩
  exact ⟨_, execLdMemVx_of_le h, fun z hz => State.byteAt_writeBytes_registerBlock hm _ hz,
    State.toNat_i_bumpIIfLegacy, State.advance_advances _,
    (State.writeBytes_registerBlock_sameExcept hm _ x).bumpIIfLegacy_advance rfl x⟩

/-- Settles O34: in range the register block is loaded from I, past 0xFFF the range check fails. -/
theorem loadBlockReadsRegisters : Obligations.LoadBlockReadsRegisters := by
  intro x s
  refine ⟨fun h => ?_, fun h => haltsWith_of_exec (execLdVxMem_of_gt h)⟩
  exact ⟨_, execLdVxMem_of_le h, fun z hz => (s.readV_loadBlock x z).trans (if_pos hz),
    State.toNat_i_bumpIIfLegacy, State.advance_advances _,
    (s.loadBlock_sameExcept x).bumpIIfLegacy_advance rfl x⟩

end Sys2Proof.Proofs
end

section
/-! PROOFS. The display instructions (spec/44_display.md): the statement of the family. -/

namespace Sys2Proof.Proofs

open Sys2Proof.Machine

/-- Settles O38: the pixel buffer is replaced by the clear display, and PC advances. -/
theorem clearScreenClearsEveryPixel : Obligations.ClearScreenClearsEveryPixel :=
  fun s => ⟨_, rfl, clearDisplay_pixel, State.advance_advances _,
    ((s.writePix_sameExcept clearDisplay).trans (State.advance_sameExcept _)).mono fun _ => Or.symm⟩

end Sys2Proof.Proofs
end

section
/-! PROOFS. The key and timer instructions (spec/45_keys_timers.md): the frame of a change followed by
`advance`, and the statement of the family. -/

namespace Sys2Proof.Machine

/-- Advancing adds only PC to what was changed before it (R19). -/
theorem SameExcept.advance {changed : Part → Prop} {s u : State} (h : SameExcept changed s u) :
    SameExcept (fun p => p = .pc ∨ changed p) s u.advance :=
  (h.trans u.advance_sameExcept).mono fun _ => Or.symm

end Sys2Proof.Machine

namespace Sys2Proof.Proofs

open Sys2Proof.Machine

/-- Settles O44: each transfer writes its one destination, a register or a timer, and PC advances. -/
theorem timerTransfers : Obligations.TimerTransfers := by
  intro x s
  refine ⟨writesRegister_of_exec rfl, ?ldDt, ?ldSt⟩
  case ldDt => exact ⟨_, rfl, rfl, State.advance_advances _, (s.writeDt_sameExcept _).advance⟩
  case ldSt => exact ⟨_, rfl, rfl, State.advance_advances _, (s.writeSt_sameExcept _).advance⟩

end Sys2Proof.Proofs
end

section
/-! PROOFS. Encoding and decoding (spec/30_encoding.md): a word is its packed fields, what the masks of the
opcode map keep, and the statements of the family. -/

namespace Sys2Proof

/-! ### A word is its packed fields -/

/-- The first nibble of a word, which names the group of its instruction (R85). -/
def fieldOp (w : Word) : BitVec 4 := w.extractLsb' 12 4

theorem toNat_fieldOp (w : Word) : (fieldOp w).toNat = w.toNat / 4096 := by
  have := w.isLt
  simp only [fieldOp, BitVec.extractLsb'_toNat, Nat.shiftRight_eq_div_pow]
  omega

theorem toNat_fieldN (w : Word) : (fieldN w).toNat = w.toNat % 16 := by
  simp [fieldN, BitVec.extractLsb'_toNat]

theorem toNat_fieldNN (w : Word) : (fieldNN w).toNat = w.toNat % 256 := by
  simp [fieldNN, BitVec.extractLsb'_toNat]

/-- A word is its fields in layout NNN (R84). -/
theorem packNNN_fields (w : Word) : packNNN (fieldOp w) (fieldNNN w) = w := by
  apply BitVec.eq_of_toNat_eq
  have := w.isLt
  simp only [toNat_packNNN, toNat_fieldOp, fieldNNN, BitVec.extractLsb'_toNat, Nat.shiftRight_eq_div_pow]
  omega

/-- A word is its fields in layout XNN (R84). -/
theorem packXNN_fields (w : Word) : packXNN (fieldOp w) (fieldX w) (fieldNN w) = w := by
  apply BitVec.eq_of_toNat_eq
  have := w.isLt
  simp only [toNat_packXNN, toNat_fieldOp, toNat_fieldNN, fieldX, BitVec.extractLsb'_toNat,
    Nat.shiftRight_eq_div_pow]
  omega

/-- A word is its fields in layout XYN (R84). -/
theorem packXYN_fields (w : Word) : packXYN (fieldOp w) (fieldX w) (fieldY w) (fieldN w) = w := by
  apply BitVec.eq_of_toNat_eq
  have := w.isLt
  simp only [toNat_packXYN, toNat_fieldOp, toNat_fieldN, fieldX, fieldY, BitVec.extractLsb'_toNat,
    Nat.shiftRight_eq_div_pow]
  omega

/-! ### What the masks of the opcode map keep -/

section masks

variable {w : Word} {op n : BitVec 4} {nn : Byte}

/-- Mask F000 keeps the first nibble. -/
theorem and_F000_eq_iff {p : Word} : w &&& 0xF000#16 = p ↔ w.toNat / 4096 * 4096 = p.toNat := by
  have hw := packNNN_and_F000 (fieldOp w) (fieldNNN w)
  rw [packNNN_fields, BitVec.ofNat_eq_ofNat] at hw
  rw [hw, ← BitVec.toNat_inj, toNat_packNNN, toNat_fieldOp]
  simp

/-- Mask F00F keeps the first and the last nibble. -/
theorem and_F00F_eq_iff {p : Word} :
    w &&& 0xF00F#16 = p ↔ w.toNat / 4096 * 4096 + w.toNat % 16 = p.toNat := by
  have hw := packXYN_and_F00F (fieldOp w) (fieldX w) (fieldY w) (fieldN w)
  rw [packXYN_fields, BitVec.ofNat_eq_ofNat] at hw
  rw [hw, ← BitVec.toNat_inj, toNat_packXYN, toNat_fieldOp, toNat_fieldN]
  simp

/-- Mask F0FF keeps the first nibble and the low byte. -/
theorem and_F0FF_eq_iff {p : Word} :
    w &&& 0xF0FF#16 = p ↔ w.toNat / 4096 * 4096 + w.toNat % 256 = p.toNat := by
  have hw := packXNN_and_F0FF (fieldOp w) (fieldX w) (fieldNN w)
  rw [packXNN_fields, BitVec.ofNat_eq_ofNat] at hw
  rw [hw, ← BitVec.toNat_inj, toNat_packXNN, toNat_fieldOp, toNat_fieldNN]
  simp

/-- Mask FFFF keeps the whole word. -/
theorem and_FFFF (w : Word) : w &&& 0xFFFF#16 = w := BitVec.and_allOnes

/-- The first nibble under mask F000. -/
theorem fieldOp_of_and_F000 (h : w &&& 0xF000#16 = packNNN op 0) : fieldOp w = op := by
  rw [and_F000_eq_iff, toNat_packNNN] at h
  rw [← BitVec.toNat_inj, toNat_fieldOp]
  simp only [BitVec.ofNat_eq_ofNat, BitVec.toNat_ofNat] at h
  omega

/-- A word whose first nibble is `op`, packed again in layout NNN. -/
theorem packNNN_of_and_F000 (h : w &&& 0xF000#16 = packNNN op 0) : packNNN op (fieldNNN w) = w := by
  rw [← fieldOp_of_and_F000 h, packNNN_fields]

/-- A word whose first nibble is `op`, packed again in layout XNN. -/
theorem packXNN_of_and_F000 (h : w &&& 0xF000#16 = packNNN op 0) :
    packXNN op (fieldX w) (fieldNN w) = w := by
  rw [← fieldOp_of_and_F000 h, packXNN_fields]

/-- A word whose first nibble is `op`, packed again in layout XYN. -/
theorem packXYN_of_and_F000 (h : w &&& 0xF000#16 = packNNN op 0) :
    packXYN op (fieldX w) (fieldY w) (fieldN w) = w := by
  rw [← fieldOp_of_and_F000 h, packXYN_fields]

/-- The first and the last nibble under mask F00F. -/
theorem fields_of_and_F00F (h : w &&& 0xF00F#16 = packXYN op 0 0 n) : fieldOp w = op ∧ fieldN w = n := by
  rw [and_F00F_eq_iff, toNat_packXYN] at h
  rw [← BitVec.toNat_inj, ← BitVec.toNat_inj, toNat_fieldOp, toNat_fieldN]
  simp only [BitVec.ofNat_eq_ofNat, BitVec.toNat_ofNat] at h
  omega

/-- The first nibble and the low byte under mask F0FF. -/
theorem fields_of_and_F0FF (h : w &&& 0xF0FF#16 = packXNN op 0 nn) : fieldOp w = op ∧ fieldNN w = nn := by
  rw [and_F0FF_eq_iff, toNat_packXNN] at h
  rw [← BitVec.toNat_inj, ← BitVec.toNat_inj, toNat_fieldOp, toNat_fieldNN]
  simp only [BitVec.ofNat_eq_ofNat, BitVec.toNat_ofNat] at h
  omega

/-- A word whose first and last nibble are `op` and `n`, packed again in layout XY. -/
theorem packXYN_of_and_F00F (h : w &&& 0xF00F#16 = packXYN op 0 0 n) :
    packXYN op (fieldX w) (fieldY w) n = w := by
  obtain ⟨rfl, rfl⟩ := fields_of_and_F00F h
  exact packXYN_fields w

/-- A word whose first nibble and low byte are `op` and `nn`, packed again in layout X. -/
theorem packXNN_of_and_F0FF (h : w &&& 0xF0FF#16 = packXNN op 0 nn) : packXNN op (fieldX w) nn = w := by
  obtain ⟨rfl, rfl⟩ := fields_of_and_F0FF h
  exact packXNN_fields w

end masks

/-! ### A row's instruction and its word -/

/-- The word of every instruction selects the row of its mnemonic (R85). -/
theorem encodeSelectsRow : ∀ i : Instr, Laws.EncodeSelectsRow.Statement i
  | .cls => Laws.EncodeSelectsRow.cls
  | .ret => Laws.EncodeSelectsRow.ret
  | .jpNnn nnn => Laws.EncodeSelectsRow.jpNnn nnn
  | .callNnn nnn => Laws.EncodeSelectsRow.callNnn nnn
  | .seVxNn x nn => Laws.EncodeSelectsRow.seVxNn x nn
  | .sneVxNn x nn => Laws.EncodeSelectsRow.sneVxNn x nn
  | .seVxVy x y => Laws.EncodeSelectsRow.seVxVy x y
  | .ldVxNn x nn => Laws.EncodeSelectsRow.ldVxNn x nn
  | .addVxNn x nn => Laws.EncodeSelectsRow.addVxNn x nn
  | .ldVxVy x y => Laws.EncodeSelectsRow.ldVxVy x y
  | .orVxVy x y => Laws.EncodeSelectsRow.orVxVy x y
  | .andVxVy x y => Laws.EncodeSelectsRow.andVxVy x y
  | .xorVxVy x y => Laws.EncodeSelectsRow.xorVxVy x y
  | .addVxVy x y => Laws.EncodeSelectsRow.addVxVy x y
  | .subVxVy x y => Laws.EncodeSelectsRow.subVxVy x y
  | .shrVxVy x y => Laws.EncodeSelectsRow.shrVxVy x y
  | .subnVxVy x y => Laws.EncodeSelectsRow.subnVxVy x y
  | .shlVxVy x y => Laws.EncodeSelectsRow.shlVxVy x y
  | .sneVxVy x y => Laws.EncodeSelectsRow.sneVxVy x y
  | .ldINnn nnn => Laws.EncodeSelectsRow.ldINnn nnn
  | .jpV0Nnn nnn => Laws.EncodeSelectsRow.jpV0Nnn nnn
  | .rndVxNn x nn => Laws.EncodeSelectsRow.rndVxNn x nn
  | .drwVxVyN x y n => Laws.EncodeSelectsRow.drwVxVyN x y n
  | .skpVx x => Laws.EncodeSelectsRow.skpVx x
  | .sknpVx x => Laws.EncodeSelectsRow.sknpVx x
  | .ldVxDt x => Laws.EncodeSelectsRow.ldVxDt x
  | .ldVxK x => Laws.EncodeSelectsRow.ldVxK x
  | .ldDtVx x => Laws.EncodeSelectsRow.ldDtVx x
  | .ldStVx x => Laws.EncodeSelectsRow.ldStVx x
  | .addIVx x => Laws.EncodeSelectsRow.addIVx x
  | .ldFVx x => Laws.EncodeSelectsRow.ldFVx x
  | .ldBVx x => Laws.EncodeSelectsRow.ldBVx x
  | .ldMemVx x => Laws.EncodeSelectsRow.ldMemVx x
  | .ldVxMem x => Laws.EncodeSelectsRow.ldVxMem x

/-- The row at an instruction's place in the map (R85) has its mnemonic and reads it back from its word:
the fields of a packed word are the operands packed (R86). -/
theorem row_at_place (i : Instr) :
    ∃ r ∈ opcodeMap[i.ctorIdx]?, r.mnemonic = i.mnemonic ∧ r.build (encode i) = i := by
  cases i <;> exact ⟨_, rfl, rfl, by simp [encode]⟩

/-- No mnemonic names two rows of the opcode map (R85). -/
theorem opcodeMap_mnemonics_nodup : (opcodeMap.map Row.mnemonic).Nodup := by decide

/-- The row of an instruction's mnemonic reads the instruction back from its word. -/
theorem build_encode {i : Instr} {r : Row} (hr : r ∈ opcodeMap) (hm : r.mnemonic = i.mnemonic) :
    r.build (encode i) = i := by
  obtain ⟨r', hr', hm', hb⟩ := row_at_place i
  have : r = r' := List.inj_on_of_nodup_map opcodeMap_mnemonics_nodup hr
    (List.mem_of_getElem? hr') (hm.trans hm'.symm)
  rwa [this]

section rows

variable {w : Word} {r : Row} (h : w &&& r.mask = r.pattern)
include h

/-- Rows 00E0 to 7XNN: two whole words, and the layouts NNN, XNN and XY. -/
theorem encode_build_of_rowsLow (hr : r ∈ rowsLow) : encode (r.build w) = w := by
  fin_cases hr
  · exact h.symm.trans (and_FFFF w)
  · exact h.symm.trans (and_FFFF w)
  · exact packNNN_of_and_F000 h
  · exact packNNN_of_and_F000 h
  · exact packXNN_of_and_F000 h
  · exact packXNN_of_and_F000 h
  · exact packXYN_of_and_F00F h
  · exact packXNN_of_and_F000 h
  · exact packXNN_of_and_F000 h

/-- Rows 8XY0 to 9XY0 are of layout XY. -/
theorem encode_build_of_rowsTwoRegister (hr : r ∈ rowsTwoRegister) : encode (r.build w) = w := by
  fin_cases hr <;> exact packXYN_of_and_F00F h

/-- Rows ANNN to DXYN are of the layouts NNN, XNN and XYN. -/
theorem encode_build_of_rowsHigh (hr : r ∈ rowsHigh) : encode (r.build w) = w := by
  fin_cases hr
  · exact packNNN_of_and_F000 h
  · exact packNNN_of_and_F000 h
  · exact packXNN_of_and_F000 h
  · exact packXYN_of_and_F000 h

/-- Rows EX9E to FX65 are of layout X. -/
theorem encode_build_of_rowsOneRegister (hr : r ∈ rowsOneRegister) : encode (r.build w) = w := by
  fin_cases hr <;> exact packXNN_of_and_F0FF h

/-- What a row reads from a word that selects it is encoded as that word: the mask keeps every fixed bit
and the fields hold the rest (R88). -/
theorem encode_build (hr : r ∈ opcodeMap) : encode (r.build w) = w := by
  simp only [opcodeMap, List.mem_append] at hr
  obtain ((hr | hr) | hr) | hr := hr
  · exact encode_build_of_rowsLow h hr
  · exact encode_build_of_rowsTwoRegister h hr
  · exact encode_build_of_rowsHigh h hr
  · exact encode_build_of_rowsOneRegister h hr

end rows

/-! ### The words no row selects -/

section unselected

variable {w : Word}

/-- A row is not selected exactly when the word differs from its pattern in a fixed bit (R87). -/
theorem Row.selects_eq_false_iff {r : Row} : r.selects w = false ↔ w &&& r.mask ≠ r.pattern := by
  simp [Row.selects]

theorem unselected_rowsLow : (∀ r ∈ rowsLow, r.selects w = false) ↔
    (w ≠ 0x00E0 ∧ w ≠ 0x00EE) ∧ w.toNat / 4096 ∉ [0x1, 0x2, 0x3, 0x4, 0x6, 0x7] ∧
      ¬ (w.toNat / 4096 = 0x5 ∧ w.toNat % 16 = 0) := by
  simp [rowsLow, Row.selects_eq_false_iff, and_F000_eq_iff, and_F00F_eq_iff, and_FFFF]
  bv_omega

theorem unselected_rowsTwoRegister : (∀ r ∈ rowsTwoRegister, r.selects w = false) ↔
    ¬ (w.toNat / 4096 = 0x8 ∧ w.toNat % 16 ∈ [0x0, 0x1, 0x2, 0x3, 0x4, 0x5, 0x6, 0x7, 0xE]) ∧
      ¬ (w.toNat / 4096 = 0x9 ∧ w.toNat % 16 = 0) := by
  simp [rowsTwoRegister, Row.selects_eq_false_iff, and_F00F_eq_iff]
  omega

theorem unselected_rowsHigh : (∀ r ∈ rowsHigh, r.selects w = false) ↔
    w.toNat / 4096 ∉ [0xA, 0xB, 0xC, 0xD] := by
  simp [rowsHigh, Row.selects_eq_false_iff, and_F000_eq_iff]
  omega

theorem unselected_rowsOneRegister : (∀ r ∈ rowsOneRegister, r.selects w = false) ↔
    ¬ (w.toNat / 4096 = 0xE ∧ w.toNat % 256 ∈ [0x9E, 0xA1]) ∧
      ¬ (w.toNat / 4096 = 0xF ∧
        w.toNat % 256 ∈ [0x07, 0x0A, 0x15, 0x18, 0x1E, 0x29, 0x33, 0x55, 0x65]) := by
  simp [rowsOneRegister, Row.selects_eq_false_iff, and_F0FF_eq_iff]
  omega

/-- A word is unrecognised exactly when no group of the opcode map has a row for it (R87). -/
theorem decode_eq_unknown_self_iff : decode w = .unknown w ↔
    (((∀ r ∈ rowsLow, r.selects w = false) ∧ ∀ r ∈ rowsTwoRegister, r.selects w = false) ∧
      ∀ r ∈ rowsHigh, r.selects w = false) ∧ ∀ r ∈ rowsOneRegister, r.selects w = false := by
  simp only [decode_eq_unknown_iff, true_and, opcodeMap, List.forall_mem_append]

end unselected

end Sys2Proof

namespace Sys2Proof.Proofs

/-- Settles O4: the word of an instruction selects the row of its mnemonic, which reads it back. -/
theorem decodeOfEncode : Obligations.DecodeOfEncode := by
  intro i
  obtain ⟨r, hr, hm, hs⟩ := encodeSelectsRow i
  rw [decode_of_row hr hs, build_encode hr hm]

/-- Settles O5: an instruction is read from a row the word selects. -/
theorem encodeOfDecode : Obligations.EncodeOfDecode := by
  intro w i h
  obtain ⟨r, hr, hs, rfl⟩ := row_of_decode h
  exact encode_build (beq_iff_eq.1 hs) hr

/-- Settles O6: the first nibble tells which group of rows a word can select. -/
theorem unrecognisedWordsExactly : Obligations.UnrecognisedWordsExactly := by
  intro w
  rw [decode_eq_unknown_self_iff, unselected_rowsLow, unselected_rowsTwoRegister, unselected_rowsHigh,
    unselected_rowsOneRegister]
  have hw : w.toNat / 4096 < 16 := by have := w.isLt; omega
  generalize hop : w.toNat / 4096 = op at hw ⊢
  interval_cases op <;> simp <;> bv_omega

/-- Settles O3: each word selects its row. -/
theorem writtenWordsDecode : Obligations.WrittenWordsDecode := by
  unfold Obligations.WrittenWordsDecode
  decide

end Sys2Proof.Proofs
end

section
/-! PROOFS. What an instruction can answer, said once for all of them: an equation for each branch of the
meanings that branch, then the one inversion `exec_answers` (an error raised or an effect inside the parts the
instruction may write), and the statements about all instructions (spec/10_state.md, spec/60_exceptions.md). -/

namespace Sys2Proof.Machine

variable {s : State} {x y : RegId} {n : BitVec 4} {nnn : Addr}

/-! ### The branches of the meanings that branch -/

/-- With room on the stack CALL pushes the address after it and jumps (R147). -/
theorem execCallNnn_of_lt (h : s.sp.toNat < 16) :
    execCallNnn nnn s =
      .next (((s.writeStack ⟨s.sp.toNat, h⟩ (s.pc + 2)).writeSp (s.sp + 1)).writePc (extendAddr nnn)) := by
  have hne : s.sp ≠ 16 := by bv_omega
  rw [execCallNnn, if_neg hne, dif_pos h]

/-- On a full stack CALL raises StackOverflow (R302). -/
theorem execCallNnn_of_full (h : s.sp = 16) : execCallNnn nnn s = s.raiseFatal .stackOverflow :=
  if_pos h

/-- SP above 16 stops CALL by name (log 7). -/
theorem execCallNnn_of_gt (h : 16 < s.sp.toNat) : execCallNnn nnn s = .fault .stackPointerIllegal := by
  have hne : s.sp ≠ 16 := by bv_omega
  rw [execCallNnn, if_neg hne, dif_neg (by omega)]

/-- SP above 16 stops RET by name (log 7). -/
theorem execRet_of_gt (h : 16 < s.sp.toNat) : execRet s = .fault .stackPointerIllegal := by
  have hne : s.sp ≠ 0 := by bv_omega
  have hsub : ¬ (s.sp - 1).toNat < 16 := by bv_omega
  rw [execRet, if_neg hne, dif_neg hsub]

/-- DXYN of no rows clears VF and advances (R216). -/
theorem execDrwVxVyN_zero : execDrwVxVyN x y 0 s = .next (s.writeV VF 0).advance :=
  if_pos rfl

/-- DXYN in range draws its sprite and writes the collision to VF (R211). -/
theorem execDrwVxVyN_of_le (hn : n ≠ 0) (h : s.i.toNat + n.toNat ≤ 0x1000) :
    execDrwVxVyN x y n s = .next ((s.writePix (s.drawSprite x y n).pix).writeV VF
      (flagByte (s.drawSprite x y n).col)).advance := by
  rw [execDrwVxVyN, if_neg hn, if_pos (accessInRange_iff.2 h)]

/-- DXYN past 0xFFF raises MemoryOutOfRange (R304). -/
theorem execDrwVxVyN_of_gt (hn : n ≠ 0) (h : 0x1000 < s.i.toNat + n.toNat) :
    execDrwVxVyN x y n s = s.raiseFatal .memoryOutOfRange := by
  rw [execDrwVxVyN, if_neg hn, accessInRange_eq_false_iff.2 h, if_neg Bool.false_ne_true]

/-- FX33 in range stores the three digits at I (R184). -/
theorem execLdBVx_of_le (h : s.i.toNat + 2 ≤ 0xFFF) :
    execLdBVx x s = .next (s.writeBytes s.i.toNat (bcdDigits (s.readV x))).advance :=
  if_pos (accessInRange_iff.2 (by omega))

/-- FX33 past 0xFFF raises MemoryOutOfRange (R304). -/
theorem execLdBVx_of_gt (h : 0xFFF < s.i.toNat + 2) :
    execLdBVx x s = s.raiseFatal .memoryOutOfRange :=
  if_neg (mt accessInRange_iff.1 (by omega))

/-- A key skip tests the key its register names (R241, R242). -/
theorem State.skipOnKey_of_lt {wanted : Bool} (h : (s.readV x).toNat < 16) :
    s.skipOnKey x wanted = .next (s.skipIf (s.keyDown ⟨(s.readV x).toNat, h⟩ == wanted)) :=
  dif_pos h

/-- A key index above 0xF raises KeyIndexOutOfRange (R306). -/
theorem State.skipOnKey_of_gt {wanted : Bool} (h : 0xF < (s.readV x).toNat) :
    s.skipOnKey x wanted = s.raiseFatal .keyIndexOutOfRange :=
  dif_neg (by omega)

/-- FX0A with a key pressed records the lowest and advances (R246). -/
theorem execLdVxK_of_some {k : Nat} (h : s.lowestKey = some k) :
    execLdVxK x s = .next (s.writeV x (BitVec.ofNat 8 k)).advance := by
  rw [execLdVxK, h]

/-- FX0A with no key pressed changes nothing (R246). -/
theorem execLdVxK_of_none (h : s.lowestKey = none) : execLdVxK x s = .next s := by
  rw [execLdVxK, h]

end Sys2Proof.Machine

namespace Sys2Proof

open Machine

/-- The parts an instruction may write when it raises no error: the destinations and flags of R31 and R32,
and for each other part the instructions whose rules name it. -/
def Instr.mayWrite (q : Quirks) (i : Instr) : Part → Prop
  | .reg z => i.isDestination z = true ∨ (z = VF ∧ i.writesFlag q = true)
  | .i => (∃ nnn, i = .ldINnn nnn) ∨ (∃ x, i = .addIVx x) ∨ (∃ x, i = .ldFVx x) ∨
      (q.memIncI = true ∧ ∃ x, i = .ldMemVx x ∨ i = .ldVxMem x)
  | .pc => True
  | .sp => i = .ret ∨ ∃ nnn, i = .callNnn nnn
  | .stackSlot _ => ∃ nnn, i = .callNnn nnn
  | .dt => ∃ x, i = .ldDtVx x
  | .st => ∃ x, i = .ldStVx x
  | .pixel _ _ => i = .cls ∨ ∃ x y n, i = .drwVxVyN x y n
  | .memByte _ => ∃ x, i = .ldBVx x ∨ i = .ldMemVx x
  | .draws => ∃ x nn, i = .rndVxNn x nn
  | .key _ | .params | .started | .loaded | .ran | .halt | .sinceTick | .diag => False

/-- How an instruction of a class moves PC (R19); a jump, call or return goes where its own rule says. -/
def FlowClass.Moves : FlowClass → State → State → Prop
  | .advance, s, t => Advances s t
  | .conditionalSkip, s, t => Advances s t ∨ SkipsNext s t
  | .jumpCallReturn, _, _ => True
  | .blockingWait, s, t => Advances s t ∨ t = s

end Sys2Proof

namespace Sys2Proof.Machine

variable {i : Instr} {x y : RegId} {s t u : State}

/-! ### The two kinds of answer -/

/-- The state in which a cause is raised, as the invariant keeps it of a halted engine (R301 to R306). -/
def Cause.Fits (s : State) : Cause → Prop
  | .programTooLarge => s.started = false ∧ s.loaded = false
  | .stackOverflow => s.started = true ∧ s.sp = 16
  | .stackUnderflow => s.started = true ∧ s.sp = 0
  | .memoryOutOfRange => s.started = true
  | .fetchOutOfRange => s.started = true ∧ 0xFFE < s.pc.toNat
  | .keyIndexOutOfRange => s.started = true

/-- The instruction raised its one cause: HALT is set and nothing else changed (R308, D7). -/
def Raised (i : Instr) (s t : State) : Prop :=
  ∃ c, i.mayRaise = some c ∧ (s.started = true → c.Fits s) ∧ t = { s with halt := .fatal c }

/-- Memory is as before, or with bytes stored from I upward inside the address space (R63, R66). -/
def StoresInRange (s t : State) : Prop :=
  t.mem = s.mem ∨
    ∃ bs : List Byte, s.i.toNat + bs.length ≤ 0x1000 ∧
      t.mem = Memory.putBytes s.params s.mem s.i.toNat bs

/-- What an instruction that raises no error does. -/
structure Effect (i : Instr) (s t : State) : Prop where
  frame : SameExcept (i.mayWrite s.params.quirks) s t
  memory : StoresInRange s t
  stackPointer : s.sp.toNat ≤ 16 → t.sp.toNat ≤ 16
  flow : i.flow.Moves s t

/-- The instruction answers a next state, by an error raised or by an effect. -/
def Answers (i : Instr) (s : State) : Prop :=
  ∃ t, exec i s = .next t ∧ (Raised i s t ∨ Effect i s t)

theorem answers_of_raise {c : Cause} (h : exec i s = s.raiseFatal c) (hi : i.mayRaise = some c)
    (hc : s.started = true → c.Fits s) : Answers i s :=
  ⟨_, h, .inl ⟨c, hi, hc, rfl⟩⟩

/-- An instruction of class `advance` changes some parts and then moves PC on. -/
theorem answers_of_advance {changed : Part → Prop} (h : exec i s = .next u.advance)
    (hflow : i.flow = .advance) (hu : SameExcept changed s u)
    (hw : ∀ p, changed p → i.mayWrite s.params.quirks p)
    (hm : StoresInRange s u := by exact .inl rfl) (hsp : u.sp = s.sp := by rfl)
    (hpc : u.pc = s.pc := by rfl) : Answers i s := by
  refine ⟨_, h, .inr ⟨hu.advance.mono ?_, hm, fun hs => ?_, ?_⟩⟩
  · rintro p (rfl | hp)
    · trivial
    · exact hw p hp
  · rwa [State.advance_sp, hsp]
  · have := u.advance_advances
    rw [Advances, hpc] at this
    rwa [hflow]

/-- An instruction that writes one register and advances. -/
theorem answers_of_writeV {b : Byte} (h : exec i s = .next (s.writeV x b).advance)
    (hflow : i.flow = .advance) (hx : i.isDestination x = true) : Answers i s :=
  answers_of_advance h hflow (s.writeV_sameExcept x b) (by rintro _ rfl; exact .inl hx)

/-- An instruction that writes a result and then the flag (R100). -/
theorem answers_of_resultThenFlag {r f : Byte} (h : exec i s = s.resultThenFlag x r f)
    (hflow : i.flow = .advance) (hx : i.isDestination x = true)
    (hf : i.writesFlag s.params.quirks = true) : Answers i s :=
  answers_of_advance h hflow ((s.writeV_sameExcept x r).trans (State.writeV_sameExcept _ VF f)) (by
    rintro _ (rfl | rfl)
    · exact .inl hx
    · exact .inr ⟨rfl, hf⟩)

/-- A bitwise instruction writes VF as a flag only under `vf_reset` (R104). -/
theorem answers_of_bitwiseResult {r : Byte} (h : exec i s = s.bitwiseResult x r)
    (hflow : i.flow = .advance) (hx : i.isDestination x = true)
    (hf : s.params.quirks.vfReset = true → i.writesFlag s.params.quirks = true) : Answers i s :=
  answers_of_advance h hflow ((s.writeV_sameExcept x r).trans (State.clearFlagIfLegacy_sameExcept _)) (by
    rintro _ (rfl | ⟨rfl, hq⟩)
    · exact .inl hx
    · exact .inr ⟨rfl, hf hq⟩)

/-- A conditional skip writes PC only (R19). -/
theorem answers_of_skipIf {c : Bool} (h : exec i s = .next (s.skipIf c))
    (hflow : i.flow = .conditionalSkip) : Answers i s := by
  refine ⟨_, h, .inr ⟨(s.writePc_sameExcept _).mono (by rintro _ rfl; trivial), .inl rfl, id, ?_⟩⟩
  rw [hflow]
  cases c with
  | false => exact .inl s.skipIf_false
  | true => exact .inr s.skipIf_true

/-- A jump, call or return writes PC and the stack. -/
theorem answers_of_writePc {w : Word} {changed : Part → Prop} (h : exec i s = .next (u.writePc w))
    (hflow : i.flow = .jumpCallReturn) (hu : SameExcept changed s u)
    (hw : ∀ p, changed p → i.mayWrite s.params.quirks p) (hm : u.mem = s.mem)
    (hsp : s.sp.toNat ≤ 16 → u.sp.toNat ≤ 16) : Answers i s := by
  refine ⟨_, h, .inr ⟨(hu.trans (u.writePc_sameExcept w)).mono ?_, .inl hm, hsp, by rw [hflow]; trivial⟩⟩
  rintro p (hp | rfl)
  · exact hw p hp
  · trivial

/-! ### The instructions that branch -/

theorem answers_drwVxVyN {n : BitVec 4} : Answers (.drwVxVyN x y n) s := by
  by_cases hn : n = 0
  · subst hn
    exact answers_of_advance execDrwVxVyN_zero rfl (s.writeV_sameExcept VF 0)
      (by rintro _ rfl; exact .inr ⟨rfl, rfl⟩)
  · rcases Nat.lt_or_ge 0x1000 (s.i.toNat + n.toNat) with h | h
    · exact answers_of_raise (execDrwVxVyN_of_gt hn h) rfl id
    · refine answers_of_advance (execDrwVxVyN_of_le hn h) rfl
        ((s.writePix_sameExcept _).trans (State.writeV_sameExcept _ VF _)) ?_
      rintro _ (⟨px, py, rfl⟩ | rfl)
      · exact .inr ⟨x, y, n, rfl⟩
      · exact .inr ⟨rfl, rfl⟩

theorem answers_of_skipOnKey {wanted : Bool} (h : exec i s = s.skipOnKey x wanted)
    (hflow : i.flow = .conditionalSkip) (hi : i.mayRaise = some .keyIndexOutOfRange) : Answers i s := by
  rcases Nat.lt_or_ge (s.readV x).toNat 16 with hx | hx
  · exact answers_of_skipIf (h.trans (State.skipOnKey_of_lt hx)) hflow
  · exact answers_of_raise (h.trans (State.skipOnKey_of_gt hx)) hi id

theorem answers_ldVxK : Answers (.ldVxK x) s := by
  cases hk : s.lowestKey with
  | none => exact ⟨s, execLdVxK_of_none hk, .inr ⟨fun p _ => by cases p <;> rfl, .inl rfl, id, .inr rfl⟩⟩
  | some k =>
    refine ⟨_, execLdVxK_of_some hk, .inr ⟨(s.writeV_sameExcept x _).advance.mono ?_, .inl rfl, id,
      .inl (State.advance_advances _)⟩⟩
    rintro _ (rfl | rfl)
    · trivial
    · exact .inl (by simp [Instr.isDestination])

/-- Writing bytes changes no part but memory. -/
theorem State.writeBytes_sameExcept_memory (s : State) (a : Nat) (bs : List Byte) :
    SameExcept (fun p => ∃ c, p = .memByte c) s (s.writeBytes a bs) := by
  intro p hp
  cases p with
  | memByte c => exact absurd ⟨c, rfl⟩ hp
  | _ => rfl

theorem answers_ldBVx : Answers (.ldBVx x) s := by
  rcases Nat.lt_or_ge 0xFFF (s.i.toNat + 2) with h | h
  · exact answers_of_raise (execLdBVx_of_gt h) rfl id
  · refine answers_of_advance (execLdBVx_of_le h) rfl (s.writeBytes_sameExcept_memory _ _) ?_
      (.inr ⟨_, ?_, rfl⟩)
    · rintro _ ⟨a, rfl⟩
      exact ⟨x, .inl rfl⟩
    · simp only [bcdDigits, List.length_cons, List.length_nil]
      omega

theorem answers_ldMemVx : Answers (.ldMemVx x) s := by
  rcases Nat.lt_or_ge 0xFFF (s.i.toNat + x.toNat) with h | h
  · exact answers_of_raise (execLdMemVx_of_gt h) rfl id
  · refine answers_of_advance (execLdMemVx_of_le h) rfl
      ((s.writeBytes_sameExcept_memory _ _).trans (State.bumpIIfLegacy_sameExcept _ x)) ?_
      (.inr ⟨_, ?_, rfl⟩)
    · rintro _ (⟨a, rfl⟩ | ⟨rfl, hq⟩)
      · exact ⟨x, .inr rfl⟩
      · exact .inr (.inr (.inr ⟨hq, x, .inl rfl⟩))
    · rw [State.length_registerBlock]
      omega

theorem answers_ldVxMem : Answers (.ldVxMem x) s := by
  rcases Nat.lt_or_ge 0xFFF (s.i.toNat + x.toNat) with h | h
  · exact answers_of_raise (execLdVxMem_of_gt h) rfl id
  · refine answers_of_advance (execLdVxMem_of_le h) rfl
      ((s.loadBlock_sameExcept x).trans (State.bumpIIfLegacy_sameExcept _ x)) ?_
    rintro _ (⟨z, rfl, hz⟩ | ⟨rfl, hq⟩)
    · exact .inl (decide_eq_true hz)
    · exact .inr (.inr (.inr ⟨hq, x, .inr rfl⟩))

theorem answers_callNnn {nnn : Addr} (h : s.sp.toNat ≤ 16) : Answers (.callNnn nnn) s := by
  rcases Nat.lt_or_eq_of_le h with h | h
  · refine answers_of_writePc (execCallNnn_of_lt h) rfl
      ((s.writeStack_sameExcept _ _).trans (State.writeSp_sameExcept _ _)) ?_ rfl fun _ => ?_
    · rintro _ (rfl | rfl)
      · exact ⟨nnn, rfl⟩
      · exact .inr ⟨nnn, rfl⟩
    · rw [State.writeSp_sp]
      bv_omega
  · have hfull : s.sp = 16 := BitVec.eq_of_toNat_eq h
    exact answers_of_raise (execCallNnn_of_full hfull) rfl fun hs => ⟨hs, hfull⟩

theorem answers_ret (h : s.sp.toNat ≤ 16) : Answers .ret s := by
  rcases Nat.eq_zero_or_pos s.sp.toNat with h0 | h0
  · have hempty : s.sp = 0 := BitVec.eq_of_toNat_eq h0
    exact answers_of_raise (execRet_of_empty hempty) rfl fun hs => ⟨hs, hempty⟩
  · obtain ⟨k, hk⟩ : ∃ k : Fin 16, s.sp.toNat = k.val + 1 := ⟨⟨s.sp.toNat - 1, by omega⟩, by simp; omega⟩
    refine answers_of_writePc (execRet_of_nonempty hk) rfl (s.writeSp_sameExcept _) ?_ rfl fun _ => ?_
    · rintro _ rfl
      exact .inl rfl
    · rw [State.writeSp_sp, State.toNat_sp_sub_one hk]
      omega

/-! ### The inversion of `exec` -/

/-- Every instruction answers with its one error or with an effect, but CALL and RET with SP above 16, which
stop by name (R82, R308, log 7). -/
theorem exec_answers (s : State) : ∀ i : Instr,
    Answers i s ∨ (16 < s.sp.toNat ∧ exec i s = .fault .stackPointerIllegal)
  | .cls => .inl (answers_of_advance rfl rfl (s.writePix_sameExcept _)
      (by rintro _ ⟨px, py, rfl⟩; exact .inl rfl))
  | .ret => (Nat.lt_or_ge 16 s.sp.toNat).symm.imp answers_ret fun h => ⟨h, execRet_of_gt h⟩
  | .jpNnn _ | .jpV0Nnn _ => .inl (answers_of_writePc rfl rfl (changed := fun _ => False)
      (fun p _ => by cases p <;> rfl) (fun _ => False.elim) rfl id)
  | .callNnn _ => (Nat.lt_or_ge 16 s.sp.toNat).symm.imp answers_callNnn fun h => ⟨h, execCallNnn_of_gt h⟩
  | .seVxNn _ _ | .sneVxNn _ _ | .seVxVy _ _ | .sneVxVy _ _ => .inl (answers_of_skipIf rfl rfl)
  | .ldVxNn _ _ | .addVxNn _ _ | .ldVxVy _ _ | .ldVxDt _ =>
      .inl (answers_of_writeV rfl rfl (by simp [Instr.isDestination]))
  | .orVxVy _ _ | .andVxVy _ _ | .xorVxVy _ _ =>
      .inl (answers_of_bitwiseResult rfl rfl (by simp [Instr.isDestination]) id)
  | .addVxVy _ _ | .subVxVy _ _ | .shrVxVy _ _ | .subnVxVy _ _ | .shlVxVy _ _ =>
      .inl (answers_of_resultThenFlag rfl rfl (by simp [Instr.isDestination]) rfl)
  | .rndVxNn x nn => .inl (answers_of_advance rfl rfl
      ((s.writeV_sameExcept x _).trans (State.countDraw_sameExcept _)) (by
        rintro _ (rfl | rfl)
        · exact .inl (by simp [Instr.isDestination])
        · exact ⟨x, nn, rfl⟩))
  | .drwVxVyN _ _ _ => .inl answers_drwVxVyN
  | .skpVx _ | .sknpVx _ => .inl (answers_of_skipOnKey rfl rfl rfl)
  | .ldVxK _ => .inl answers_ldVxK
  | .ldDtVx x => .inl (answers_of_advance rfl rfl (s.writeDt_sameExcept _) (by rintro _ rfl; exact ⟨x, rfl⟩))
  | .ldStVx x => .inl (answers_of_advance rfl rfl (s.writeSt_sameExcept _) (by rintro _ rfl; exact ⟨x, rfl⟩))
  | .ldINnn nnn => .inl (answers_of_advance rfl rfl (s.writeI_sameExcept _)
      (by rintro _ rfl; exact .inl ⟨nnn, rfl⟩))
  | .addIVx x => .inl (answers_of_advance rfl rfl (s.writeI_sameExcept _)
      (by rintro _ rfl; exact .inr (.inl ⟨x, rfl⟩)))
  | .ldFVx x => .inl (answers_of_advance rfl rfl (s.writeI_sameExcept _)
      (by rintro _ rfl; exact .inr (.inr (.inl ⟨x, rfl⟩))))
  | .ldBVx _ => .inl answers_ldBVx
  | .ldMemVx _ => .inl answers_ldMemVx
  | .ldVxMem _ => .inl answers_ldVxMem

/-- What an instruction that answers a next state did. -/
theorem raised_or_effect (h : exec i s = .next t) : Raised i s t ∨ Effect i s t := by
  rcases exec_answers s i with ⟨u, hu, hc⟩ | ⟨-, hf⟩
  · cases hu.symm.trans h
    exact hc
  · cases hf.symm.trans h

/-- With a legal SP every instruction answers a next state (R35). -/
theorem exec_next_of_sp_le (h : s.sp.toNat ≤ 16) : ∃ t, exec i s = .next t := by
  rcases exec_answers s i with ⟨t, ht, -⟩ | ⟨hsp, -⟩
  · exact ⟨t, ht⟩
  · omega

/-- A part the instruction may not write is unchanged, unless it is HALT (R308). -/
theorem exec_same {p : Part} (h : exec i s = .next t) (hp : p ≠ .halt)
    (hw : ¬ i.mayWrite s.params.quirks p) : p.same s t := by
  rcases raised_or_effect h with ⟨c, -, -, rfl⟩ | he
  · exact s.halt_sameExcept _ p hp
  · exact he.frame p hw

/-- An error raised is the only change of HALT (R308). -/
theorem raised_of_halt_ne (h : exec i s = .next t) (hh : t.halt ≠ s.halt) : Raised i s t := by
  rcases raised_or_effect h with hr | he
  · exact hr
  · exact absurd (he.frame .halt id) hh

/-- On an engine that still runs the instruction had its effect. -/
theorem effect_of_running (h : exec i s = .next t) (ht : t.halt = .running) : Effect i s t := by
  rcases raised_or_effect h with ⟨c, -, -, rfl⟩ | he
  · cases ht
  · exact he

end Sys2Proof.Machine

namespace Sys2Proof.Proofs

open Sys2Proof.Machine

/-- Settles O52: a register is written as a destination, or is VF written as a flag. -/
theorem registersWrittenOnlyByTheirWriters : Obligations.RegistersWrittenOnlyByTheirWriters := by
  intro i s t z h hd hf
  refine exec_same (p := .reg z) h nofun ?_
  rintro (hz | ⟨hz, hw⟩)
  · simp [hd] at hz
  · simp [hf hz] at hw

/-- Settles O53: the parts named are outside what the other instructions may write. -/
theorem stackAndTimersWrittenOnlyByTheirWriters : Obligations.StackAndTimersWrittenOnlyByTheirWriters := by
  intro i s t h
  refine ⟨fun hc k => exec_same (p := .stackSlot k) h nofun ?_, fun hc hr => exec_same (p := .sp) h nofun ?_,
    fun hd => exec_same (p := .dt) h nofun ?_, fun hs => exec_same (p := .st) h nofun ?_⟩
  · rintro ⟨nnn, rfl⟩
    exact hc nnn rfl
  · rintro (rfl | ⟨nnn, rfl⟩)
    · exact hr rfl
    · exact hc nnn rfl
  · rintro ⟨x, rfl⟩
    exact hd x rfl
  · rintro ⟨x, rfl⟩
    exact hs x rfl

/-- Settles O54: the parts named are outside what the other instructions may write. -/
theorem otherStateWrittenOnlyByItsWriters : Obligations.OtherStateWrittenOnlyByItsWriters := by
  intro i s t h
  refine ⟨fun hb hm a => exec_same (p := .memByte a) h nofun ?_,
    fun hc hd px py => exec_same (p := .pixel px py) h nofun ?_,
    fun ha hx hf hq => exec_same (p := .i) h nofun ?_,
    fun k => exec_same (p := .key k) h nofun id, exec_same (p := .params) h nofun id,
    exec_same (p := .started) h nofun id, exec_same (p := .loaded) h nofun id,
    exec_same (p := .ran) h nofun id, exec_same (p := .sinceTick) h nofun id,
    exec_same (p := .diag) h nofun id⟩
  · rintro ⟨x, rfl | rfl⟩
    · exact hb x rfl
    · exact hm x rfl
  · rintro (rfl | ⟨x, y, n, rfl⟩)
    · exact hc rfl
    · exact hd x y n rfl
  · rintro (⟨nnn, rfl⟩ | ⟨x, rfl⟩ | ⟨x, rfl⟩ | ⟨hl, x, rfl | rfl⟩)
    · exact ha nnn rfl
    · exact hx x rfl
    · exact hf x rfl
    · exact (hq hl).1 x rfl
    · exact (hq hl).2 x rfl

/-- Settles O55: HALT changes only where an error is raised. -/
theorem instructionFaultsArePrecise : Obligations.InstructionFaultsArePrecise := by
  intro i s t h hh
  obtain ⟨c, hc, -, ht⟩ := raised_of_halt_ne h hh
  exact ⟨c, hc, ht⟩

/-- Settles O57: an effect moves PC as the class says. -/
theorem pcFollowsTheFlowClass : Obligations.PcFollowsTheFlowClass := by
  intro i s t h _ ht
  have hflow := (effect_of_running h ht).flow
  exact ⟨fun hi => by rwa [hi] at hflow, fun hi => by rwa [hi] at hflow, fun hi => by rwa [hi] at hflow⟩

end Sys2Proof.Proofs
end

section
/-! PROOFS. The step (R80, R316): what it answers in each case, said once, and the statements about one
step. -/

namespace Sys2Proof.Machine

variable {s t : State} {i : Instr} {w : Word}

/-! ### The branches of a step -/

/-- The fetch check as an inequality (R80, D11). -/
theorem State.fetchable_iff : s.fetchable = true ↔ s.pc.toNat ≤ 0xFFE :=
  decide_eq_true_iff

/-- A fetch above 0xFFE raises FetchOutOfRange after `started` is set (R305, R316). -/
theorem step_of_fetchError (hrun : s.halt = .running) (hpc : 0xFFE < s.pc.toNat) :
    step s = .next { s.start with halt := .fatal .fetchOutOfRange } := by
  have hf : s.start.fetchable = false := Bool.eq_false_iff.2 (mt State.fetchable_iff.1 (Nat.not_le.2 hpc))
  rw [step_of_running hrun, fetchAndRun_of_not_fetchable _ hf, State.raiseFatal_eq]

/-- An unrecognised word is logged and skipped over (R149, R316). -/
theorem step_of_unknown (hrun : s.halt = .running) (hpc : s.pc.toNat ≤ 0xFFE)
    (hw : decode s.fetchWord = .unknown w) : step s = .next (s.start.logUnknown w).advance := by
  rw [step_of_running hrun]
  exact fetchAndRun_of_unknown s.start (State.fetchable_iff.2 hpc) hw

/-- A word that decodes to an instruction is executed with `started` set (R82, R316). -/
theorem step_of_instr (hrun : s.halt = .running) (hpc : s.pc.toNat ≤ 0xFFE)
    (hw : decode s.fetchWord = .instr i) : step s = exec i s.start := by
  rw [step_of_running hrun]
  exact fetchAndRun_of_instr s.start (State.fetchable_iff.2 hpc) hw

/-- The four ways a step answers a next state, in the order of R308. -/
inductive Stepped (s : State) : State → Prop
  | halted (hhalt : s.halt ≠ .running) : Stepped s s
  | fetchError (hrun : s.halt = .running) (hpc : 0xFFE < s.pc.toNat) :
      Stepped s { s.start with halt := .fatal .fetchOutOfRange }
  | logged {w : Word} (hrun : s.halt = .running) (hpc : s.pc.toNat ≤ 0xFFE)
      (hw : decode s.fetchWord = .unknown w) : Stepped s (s.start.logUnknown w).advance
  | executed {i : Instr} {t : State} (hrun : s.halt = .running) (hpc : s.pc.toNat ≤ 0xFFE)
      (hw : decode s.fetchWord = .instr i) (h : exec i s.start = .next t) : Stepped s t

/-- The inversion of `step` (R316). -/
theorem stepped_of_step (h : step s = .next t) : Stepped s t := by
  by_cases hrun : s.halt = .running
  · rcases Nat.lt_or_ge 0xFFE s.pc.toNat with hpc | hpc
    · cases (step_of_fetchError hrun hpc).symm.trans h
      exact .fetchError hrun hpc
    · cases hw : decode s.fetchWord with
      | instr i => exact .executed hrun hpc hw ((step_of_instr hrun hpc hw).symm.trans h)
      | unknown w =>
        cases (step_of_unknown hrun hpc hw).symm.trans h
        exact .logged hrun hpc hw
  · cases (step_of_halted hrun).symm.trans h
    exact .halted hrun

/-- With a legal SP every step answers a next state (log 6). -/
theorem step_next_of_sp_le (hsp : s.sp.toNat ≤ 16) : ∃ t, step s = .next t := by
  by_cases hrun : s.halt = .running
  · rcases Nat.lt_or_ge 0xFFE s.pc.toNat with hpc | hpc
    · exact ⟨_, step_of_fetchError hrun hpc⟩
    · cases hw : decode s.fetchWord with
      | instr i =>
        obtain ⟨t, ht⟩ := exec_next_of_sp_le (s := s.start) (i := i) hsp
        exact ⟨t, (step_of_instr hrun hpc hw).trans ht⟩
      | unknown w => exact ⟨_, step_of_unknown hrun hpc hw⟩
  · exact ⟨s, step_of_halted hrun⟩

/-! ### The blocked step -/

/-- The engine waits for a key when the word at PC is FX0A and no key is pressed (R246). -/
theorem State.waitsForKey_iff : s.waitsForKey = true ↔
    s.pc.toNat ≤ 0xFFE ∧ (∀ k, s.keyDown k = false) ∧ ∃ x, decode s.fetchWord = .instr (.ldVxK x) := by
  rw [State.waitsForKey, Bool.and_eq_true, State.fetchable_iff, ← s.lowestKey_eq_none]
  refine and_congr_right fun _ => ?_
  split
  · next x hx => simp [hx]
  · next hx => simpa using fun _ => hx

/-- A step is blocked when the engine waited for a key and still runs (log 14). -/
theorem stepOutcome_eq_blocked_iff : stepOutcome s t = .blocked ↔
    s.halt = .running ∧ t.halt = .running ∧ s.waitsForKey = true := by
  unfold stepOutcome
  cases s.halt <;> cases t.halt <;> simp

/-- A step that waits for a key only sets `started` (R246). -/
theorem step_of_waitsForKey (hrun : s.halt = .running) (hw : s.waitsForKey = true) :
    step s = .next s.start := by
  obtain ⟨hpc, hkeys, x, hx⟩ := State.waitsForKey_iff.1 hw
  rw [step_of_instr hrun hpc hx]
  exact execLdVxK_of_none (s.start.lowestKey_eq_none.2 hkeys)

/-- A blocked step only sets `started` (R246, R316). -/
theorem eq_start_of_blocked (h : step s = .next t) (hb : stepOutcome s t = .blocked) : t = s.start := by
  obtain ⟨hrun, -, hw⟩ := stepOutcome_eq_blocked_iff.1 hb
  cases h.symm.trans (step_of_waitsForKey hrun hw)
  rfl

/-- Logging a word changes no part but the diagnostic output (R314). -/
theorem State.logUnknown_sameExcept (s : State) (w : Word) :
    SameExcept (fun p => p = .diag) s (s.logUnknown w) := by
  intro p hp
  cases p with
  | diag => exact absurd rfl hp
  | _ => rfl

/-! ### A placed word -/

/-- Placing a word leaves an engine that runs. -/
theorem State.placeWord_halt (s : State) (w : Word) : (s.placeWord w).halt = .running := rfl

/-- Placing a word leaves PC where it can be fetched from (log 10). -/
theorem State.placeWord_pc_le (s : State) (w : Word) : (s.placeWord w).pc.toNat ≤ 0xFFE := by
  cases hf : s.fetchable with
  | true => simpa [State.placeWord, hf] using State.fetchable_iff.1 hf
  | false => simp [State.placeWord, hf]

/-- A word stored at PC is the word fetched: its two bytes are read back where they were written (R64,
R72). -/
theorem State.fetchWord_writeBytes (hm : s.mem.Sorted) (w : Word) :
    (s.writeBytes s.pc.toNat [highByte w, lowByte w]).fetchWord = w := by
  rw [State.fetchWord, State.writeBytes_pc, State.byteAt_writeBytes hm, State.byteAt_writeBytes hm]
  simp

/-- The word placed is the word fetched (log 10). -/
theorem State.fetchWord_placeWord (hm : s.mem.Sorted) (w : Word) : (s.placeWord w).fetchWord = w := by
  cases hf : s.fetchable with
  | true =>
    simp only [State.placeWord, hf, if_true]
    exact State.fetchWord_writeBytes hm w
  | false =>
    simp only [State.placeWord, hf, Bool.false_eq_true, if_false]
    exact State.fetchWord_writeBytes (s := s.writePc 0x200) hm w

/-- The word of a table row of 16 bits is the word itself (R89). -/
theorem tableWord_sixteen (w : Word) : tableWord 16 w.toNat = w :=
  BitVec.eq_of_toNat_eq (by simpa [tableWord] using w.isLt)

end Sys2Proof.Machine

namespace Sys2Proof.Proofs

open Sys2Proof.Machine

/-- Settles O7: the word fetched is the big-endian word of the two bytes at PC. -/
theorem stepRunsTheDecodedInstruction : Obligations.StepRunsTheDecodedInstruction :=
  fun _ _ hrun hpc hw => step_of_instr hrun hpc hw

/-- Settles O8: the placed word is fetched from a running engine whose PC is in range. -/
theorem placedWordRunsNext : Obligations.PlacedWordRunsNext := by
  rintro s w i ⟨hm, -⟩ hw
  refine step_of_instr (State.placeWord_halt s _) (State.placeWord_pc_le s _) ?_
  rw [State.withFetchWord, State.fetchWord_placeWord hm, tableWord_sixteen, hw]

/-- Settles O9: the event is appended with the PC of the word, before PC advances. -/
theorem unknownWordIsLoggedAndAdvances : Obligations.UnknownWordIsLoggedAndAdvances := by
  intro s u hrun hpc hw
  refine ⟨_, step_of_unknown hrun hpc hw, rfl, State.advance_advances _, rfl, ?_⟩
  exact (s.start_sameExcept.trans (State.logUnknown_sameExcept _ u)).advance.mono fun _ =>
    Or.imp_right Or.symm

/-- Settles O10: the error is raised after `started` is set. -/
theorem fetchPastTheEndHalts : Obligations.FetchPastTheEndHalts :=
  fun s hrun hpc => ⟨_, step_of_fetchError hrun hpc, rfl, rfl,
    (s.start_sameExcept.trans (State.halt_sameExcept _ _)).mono fun _ => Or.symm⟩

/-- Settles O46: a step that waits for a key runs FX0A, and FX0A with no key pressed changes nothing. -/
theorem blockedStepIsKeyWait : Obligations.BlockedStepIsKeyWait := by
  intro s t h
  refine ⟨?_, eq_start_of_blocked h⟩
  rw [stepOutcome_eq_blocked_iff]
  constructor
  · rintro ⟨hrun, -, hw⟩
    exact ⟨hrun, State.waitsForKey_iff.1 hw⟩
  · rintro ⟨hrun, hwait⟩
    have hw := State.waitsForKey_iff.2 hwait
    cases h.symm.trans (step_of_waitsForKey hrun hw)
    exact ⟨hrun, hrun, hw⟩

/-- Settles O56: a running engine is halted by a fetch error or by an instruction that raises its error. -/
theorem stepFaultsArePrecise : Obligations.StepFaultsArePrecise := by
  intro s t h hrun ht
  have hframe : ∀ c : Cause, SameExcept (fun p => p = .halt ∨ p = .started) s
      { s.start with halt := .fatal c } := fun c =>
    (s.start_sameExcept.trans (State.halt_sameExcept _ _)).mono fun _ => Or.symm
  cases stepped_of_step h with
  | halted hhalt => exact absurd hrun hhalt
  | fetchError => exact ⟨rfl, hframe _⟩
  | logged => exact absurd hrun ht
  | executed _ _ _ he =>
    obtain ⟨c, -, -, rfl⟩ := raised_of_halt_ne he (by rwa [State.start_halt, hrun])
    exact ⟨rfl, hframe c⟩

end Sys2Proof.Proofs
end

section
/-! PROOFS. The invariant: a step keeps it, a batch keeps it by induction, so every operation of the host
keeps it, and no Step and no Run from it stops the model. -/

namespace Sys2Proof.Machine

variable {s t u : State} {i : Instr} {c : Cause}

/-! ### The clauses about HALT as one -/

/-- What fits a cause is read from four parts only. -/
theorem Cause.Fits.of_same (h : c.Fits s) (hstarted : t.started = s.started)
    (hloaded : t.loaded = s.loaded) (hsp : t.sp = s.sp) (hpc : t.pc = s.pc) : c.Fits t := by
  cases c <;> simpa only [Cause.Fits, hstarted, hloaded, hsp, hpc] using h

/-- The invariant from its parts, with the five clauses about HALT as one. -/
theorem State.Inv.of_fits (hmem : Memory.wf s.params s.mem) (hsp : s.sp.toNat ≤ 16)
    (hargs : s.params.WellFormed) (hclock : s.sinceTick < Config.tickPeriod)
    (hran : s.ran = false → s.sinceTick = 0) (hdiag : ∀ e ∈ s.diag, e.Genuine)
    (hhalt : ∀ c, s.halt = .fatal c → c.Fits s) : s.Inv where
  memory := hmem
  stackPointer := hsp
  arguments := hargs
  clock := hclock
  clockRan := hran
  diagnostics := hdiag
  loadError h := hhalt _ h
  stepError c h hc := by
    have hfit := hhalt c h
    cases c with
    | programTooLarge => exact absurd rfl hc
    | stackOverflow | stackUnderflow | fetchOutOfRange => exact hfit.1
    | memoryOutOfRange | keyIndexOutOfRange => exact hfit
  overflow h := (hhalt _ h).2
  underflow h := (hhalt _ h).2
  fetchError h := (hhalt _ h).2

/-- The cause of a halted engine fits the state it was raised in. -/
theorem State.Inv.fits (hs : s.Inv) (h : s.halt = .fatal c) : c.Fits s := by
  cases c with
  | programTooLarge => exact hs.loadError h
  | stackOverflow => exact ⟨hs.stepError _ h nofun, hs.overflow h⟩
  | stackUnderflow => exact ⟨hs.stepError _ h nofun, hs.underflow h⟩
  | memoryOutOfRange => exact hs.stepError _ h nofun
  | fetchOutOfRange => exact ⟨hs.stepError _ h nofun, hs.fetchError h⟩
  | keyIndexOutOfRange => exact hs.stepError _ h nofun

/-- A fatal error that fits keeps the invariant (R300). -/
theorem State.Inv.raise (hs : s.Inv) (hc : c.Fits s) : State.Inv { s with halt := .fatal c } :=
  .of_fits hs.memory hs.stackPointer hs.arguments hs.clock hs.clockRan hs.diagnostics fun c' h => by
    cases h
    exact hc.of_same rfl rfl rfl rfl

/-- On an engine that runs the clauses about HALT hold of nothing. -/
theorem State.Inv.of_running (hrun : s.halt = .running) (hmem : Memory.wf s.params s.mem)
    (hsp : s.sp.toNat ≤ 16) (hargs : s.params.WellFormed) (hclock : s.sinceTick < Config.tickPeriod)
    (hran : s.ran = false → s.sinceTick = 0) (hdiag : ∀ e ∈ s.diag, e.Genuine) : s.Inv :=
  .of_fits hmem hsp hargs hclock hran hdiag fun c h => by rw [hrun] at h; cases h

/-! ### The step -/

/-- Bytes stored inside the address space keep memory canonical (R60). -/
theorem StoresInRange.wf (h : StoresInRange s t) (hm : Memory.wf s.params s.mem) :
    Memory.wf s.params t.mem := by
  rcases h with h | ⟨bs, hlen, h⟩
  · rwa [h]
  · rw [h]
    exact Memory.putBytes_wf hm hlen

theorem State.Inv.start (hs : s.Inv) (hrun : s.halt = .running) : s.start.Inv :=
  .of_running hrun hs.memory hs.stackPointer hs.arguments hs.clock hs.clockRan hs.diagnostics

/-- Every instruction keeps the invariant of a started engine that runs. -/
theorem State.Inv.exec (hs : s.Inv) (hrun : s.halt = .running) (hstarted : s.started = true)
    (h : exec i s = .next t) : t.Inv := by
  rcases raised_or_effect h with ⟨c, -, hc, rfl⟩ | he
  · exact hs.raise (hc hstarted)
  · have hhalt : t.halt = s.halt := he.frame .halt id
    have hparams : t.params = s.params := he.frame .params id
    have hclock : t.sinceTick = s.sinceTick := he.frame .sinceTick id
    have hran : t.ran = s.ran := he.frame .ran id
    have hdiag : t.diag = s.diag := he.frame .diag id
    refine .of_running (hhalt.trans hrun) ?_ (he.stackPointer hs.stackPointer) ?_ ?_ ?_ ?_
    · rw [hparams]
      exact he.memory.wf hs.memory
    · rw [hparams]
      exact hs.arguments
    · rw [hclock]
      exact hs.clock
    · rw [hclock, hran]
      exact hs.clockRan
    · rw [hdiag]
      exact hs.diagnostics

/-- A logged event is genuine, and logging keeps the rest of the invariant (R149, R314). -/
theorem State.Inv.logUnknown_advance {w : Word} (hs : s.Inv) (hrun : s.halt = .running)
    (hpc : s.pc.toNat ≤ 0xFFE) (hw : decode s.fetchWord = .unknown w) : (s.logUnknown w).advance.Inv := by
  obtain ⟨rfl, -⟩ := decode_eq_unknown_iff.1 hw
  refine .of_running hrun hs.memory hs.stackPointer hs.arguments hs.clock hs.clockRan fun e he => ?_
  rcases List.mem_append.1 he with he | he
  · exact hs.diagnostics e he
  · cases List.mem_singleton.1 he
    exact ⟨hpc, hw⟩

theorem State.Inv.step (hs : s.Inv) (h : step s = .next t) : t.Inv := by
  cases stepped_of_step h with
  | halted => exact hs
  | fetchError hrun hpc => exact (hs.start hrun).raise ⟨rfl, hpc⟩
  | logged hrun hpc hw => exact (hs.start hrun).logUnknown_advance hrun hpc hw
  | executed hrun _ _ he => exact (hs.start hrun).exec hrun rfl he

/-! ### The batch and the tick -/

/-- From the invariant a batch answers a state that meets it (R323). -/
theorem batch_keeps_inv (budget : Nat) (hs : s.Inv) : ∃ t, batch budget s = .next t ∧ t.Inv := by
  induction budget generalizing s with
  | zero => exact ⟨s, rfl, hs⟩
  | succ budget ih =>
    obtain ⟨t, ht⟩ := step_next_of_sp_le hs.stackPointer
    rw [batch, ht]
    dsimp only
    split
    · exact ⟨t, rfl, hs.step ht⟩
    · exact ih (hs.step ht)

theorem State.Inv.countTimers (hs : s.Inv) (hrun : s.halt = .running) : s.countTimers.Inv :=
  .of_running hrun hs.memory hs.stackPointer hs.arguments hs.clock hs.clockRan hs.diagnostics

/-- On an engine that runs a tick counts the timers down and runs the batch (R322). -/
theorem tick_of_running (hrun : s.halt = .running) :
    tick s = batch s.params.instructionsPerTick s.start.countTimers :=
  if_pos hrun

/-- A halted engine ignores a tick (R307). -/
theorem tick_of_halted (hhalt : s.halt ≠ .running) : tick s = .next s :=
  if_neg hhalt

/-- From the invariant a tick answers a state that meets it (R322). -/
theorem tick_keeps_inv (hs : s.Inv) : ∃ t, tick s = .next t ∧ t.Inv := by
  by_cases hrun : s.halt = .running
  · rw [tick_of_running hrun]
    exact batch_keeps_inv _ ((hs.start hrun).countTimers hrun)
  · exact ⟨s, tick_of_halted hrun, hs⟩

/-! ### The host's operations -/

/-- A Run moves the tick clock to a time below the period (R321). -/
theorem State.Inv.markRan_writeSinceTick (hs : s.Inv) {d : Duration} (hd : d < Config.tickPeriod) :
    (s.markRan.writeSinceTick d).Inv :=
  .of_fits hs.memory hs.stackPointer hs.arguments hd nofun hs.diagnostics fun _ h =>
    (hs.fits h).of_same rfl rfl rfl rfl

/-- A Run that reaches the period does one Tick from zero (R321). -/
theorem hostRun_of_le {elapsed : Duration} (h : Config.tickPeriod ≤ s.sinceTick + elapsed) :
    hostRun elapsed s = tick (s.markRan.writeSinceTick 0) :=
  if_pos h

/-- A Run below the period gathers the time (R321). -/
theorem hostRun_of_lt {elapsed : Duration} (h : s.sinceTick + elapsed < Config.tickPeriod) :
    hostRun elapsed s = .next (s.markRan.writeSinceTick (s.sinceTick + elapsed)) :=
  if_neg (Nat.not_le.2 h)

/-- From the invariant a Run answers a state that meets it (R321). -/
theorem hostRun_keeps_inv (elapsed : Duration) (hs : s.Inv) : ∃ t, hostRun elapsed s = .next t ∧ t.Inv := by
  rcases Nat.lt_or_ge (s.sinceTick + elapsed) Config.tickPeriod with h | h
  · exact ⟨_, hostRun_of_lt h, hs.markRan_writeSinceTick h⟩
  · rw [hostRun_of_le h]
    exact tick_keeps_inv (hs.markRan_writeSinceTick (by decide))

/-- When a Load is admitted (R331, R339). -/
theorem State.admitsLoad_iff : s.admitsLoad = true ↔
    s.started = false ∧ s.ran = false ∧ s.loaded = false ∧ s.halt = .running := by
  simp [State.admitsLoad, and_assoc]

/-- An admitted Load of a program that fits copies it (R331). -/
theorem hostLoad_of_le {bytes : List Byte} (ha : s.admitsLoad = true) (h : bytes.length ≤ 3584) :
    hostLoad bytes s = .next (s.markLoaded.writeBytes Config.progStart bytes) := by
  rw [hostLoad, if_pos ha]
  exact if_pos h

/-- An admitted Load of a longer program raises ProgramTooLarge (R301). -/
theorem hostLoad_of_gt {bytes : List Byte} (ha : s.admitsLoad = true) (h : 3584 < bytes.length) :
    hostLoad bytes s = s.raiseFatal .programTooLarge := by
  rw [hostLoad, if_pos ha]
  exact if_neg (Nat.not_le.2 h)

/-- Any other Load is refused (R331). -/
theorem hostLoad_of_not_admitted {bytes : List Byte} (ha : ¬ s.admitsLoad = true) :
    hostLoad bytes s = .refused .loadNotAdmitted :=
  if_neg ha

theorem State.Inv.hostLoad {bytes : List Byte} (hs : s.Inv) (h : hostLoad bytes s = .next t) : t.Inv := by
  by_cases ha : s.admitsLoad = true
  · obtain ⟨hstarted, -, hloaded, hrun⟩ := State.admitsLoad_iff.1 ha
    rcases Nat.lt_or_ge 3584 bytes.length with hlen | hlen
    · cases (hostLoad_of_gt ha hlen).symm.trans h
      exact hs.raise ⟨hstarted, hloaded⟩
    · cases (hostLoad_of_le ha hlen).symm.trans h
      have hmem : Memory.wf s.params (Memory.putBytes s.params s.mem Config.progStart bytes) :=
        Memory.putBytes_wf hs.memory (by simp only [Config.progStart, Config.memSize]; omega)
      exact .of_running hrun hmem hs.stackPointer hs.arguments hs.clock hs.clockRan hs.diagnostics
  · cases (hostLoad_of_not_admitted ha).symm.trans h

/-- A key index in range is accepted (R332). -/
theorem hostSetKey_of_lt {k : Nat} {pressed : Bool} (h : k < 16) :
    hostSetKey k pressed s = .next (s.writeKey ⟨k, h⟩ pressed) :=
  dif_pos h

/-- A key index above 15 is refused (R332). -/
theorem hostSetKey_of_ge {k : Nat} {pressed : Bool} (h : 16 ≤ k) :
    hostSetKey k pressed s = .refused .setKeyIndexRefused :=
  dif_neg (Nat.not_lt.2 h)

theorem State.Inv.hostSetKey {k : Nat} {pressed : Bool} (hs : s.Inv)
    (h : hostSetKey k pressed s = .next t) : t.Inv := by
  rcases Nat.lt_or_ge k 16 with hk | hk
  · cases (hostSetKey_of_lt hk).symm.trans h
    exact .of_fits hs.memory hs.stackPointer hs.arguments hs.clock hs.clockRan hs.diagnostics fun _ h =>
      (hs.fits h).of_same rfl rfl rfl rfl
  · cases (hostSetKey_of_ge hk).symm.trans h

end Sys2Proof.Machine

namespace Sys2Proof.Proofs

open Sys2Proof.Machine

/-- Settles O58: each of the four ways a step answers keeps the invariant. -/
theorem stepKeepsTheInvariant : Obligations.StepKeepsTheInvariant :=
  fun _ _ hs h => hs.step h

/-- Settles O59: Load and SetKey write what the invariant allows, and a Run's batch is steps. -/
theorem hostMovesKeepTheInvariant : Obligations.HostMovesKeepTheInvariant := by
  intro m s t hs h
  cases m with
  | load bytes => exact hs.hostLoad h
  | setKey k pressed => exact hs.hostSetKey h
  | run elapsed =>
    obtain ⟨u, hu, huInv⟩ := hostRun_keeps_inv elapsed hs
    cases hu.symm.trans h
    exact huInv
  | step => exact hs.step h

/-- Settles O60: SP is legal in every state the invariant holds of, along a batch too. -/
theorem stepAndRunAlwaysAnswer : Obligations.StepAndRunAlwaysAnswer := by
  intro s hs
  refine ⟨step_next_of_sp_le hs.stackPointer, fun elapsed => ?_⟩
  obtain ⟨t, ht, -⟩ := hostRun_keeps_inv elapsed hs
  exact ⟨t, ht⟩

/-- Settles O2: after construction memory lists nothing and nothing is logged, run or halted. -/
theorem invariantHoldsAtConstruction : Obligations.InvariantHoldsAtConstruction := by
  have hconstruct : ∀ p : Params, p.WellFormed → (State.construct p).Inv := fun p hp =>
    .of_running rfl (Memory.wf_nil p) (Nat.zero_le 16) hp (show 0 < Config.tickPeriod by decide) (fun _ => rfl)
      nofun
  exact ⟨hconstruct, hconstruct _ ⟨Nat.le_add_left 1 _, by decide⟩⟩

end Sys2Proof.Proofs
end

section
/-! PROOFS. Construction, the batch and the host's operations (spec/60_exceptions.md, spec/10_state.md): the
frames of their updates and the statements of the family. -/

namespace Sys2Proof.Machine

variable {s t : State}

/-! ### Frames of the host's updates -/

/-- Setting the tick clock changes no part but the clock (R45). -/
theorem State.writeSinceTick_sameExcept (s : State) (d : Duration) :
    SameExcept (fun p => p = .sinceTick) s (s.writeSinceTick d) := by
  intro p hp
  cases p with
  | sinceTick => exact absurd rfl hp
  | _ => rfl

/-- Recording the first Run changes no part but `ran` (log 16). -/
theorem State.markRan_sameExcept (s : State) : SameExcept (fun p => p = .ran) s s.markRan := by
  intro p hp
  cases p with
  | ran => exact absurd rfl hp
  | _ => rfl

/-- Setting `loaded` changes no part but `loaded` (R43). -/
theorem State.markLoaded_sameExcept (s : State) : SameExcept (fun p => p = .loaded) s s.markLoaded := by
  intro p hp
  cases p with
  | loaded => exact absurd rfl hp
  | _ => rfl

/-- Writing a key changes no part but that key (R332). -/
theorem State.writeKey_sameExcept (s : State) (k : Fin 16) (pressed : Bool) :
    SameExcept (fun p => p = .key k) s (s.writeKey k pressed) := by
  intro p hp
  cases p with
  | key j =>
    have hj : ¬ j = k := fun h => hp (h ▸ rfl)
    exact (s.keyDown_writeKey k j pressed).trans (if_neg hj)
  | _ => rfl

/-- The record of a Run and its clock change those two parts only (R321). -/
theorem State.markRan_writeSinceTick_sameExcept (s : State) (d : Duration) :
    SameExcept (fun p => p = .sinceTick ∨ p = .ran) s (s.markRan.writeSinceTick d) :=
  (s.markRan_sameExcept.trans (State.writeSinceTick_sameExcept _ d)).mono fun _ => Or.symm

/-! ### A batch that ends early -/

/-- Running one step more on a machine whose step answers a next state. -/
theorem run_succ_of_next (M : Host.Core) {s t : M.State} (h : M.step s = .next t) (k : Nat) :
    M.run (k + 1) s = M.run k t := by
  rw [Host.Core.run, h]

/-- Running stops at a fault. -/
theorem run_succ_of_fault (M : Host.Core) {s : M.State} {f : M.Fault} (h : M.step s = .fault f) (k : Nat) :
    M.run (k + 1) s = .fault f := by
  rw [Host.Core.run, h]

/-- Running stops at a refusal. -/
theorem run_succ_of_refused (M : Host.Core) {s : M.State} {r : M.Refusal} (h : M.step s = .refused r)
    (k : Nat) : M.run (k + 1) s = .refused r := by
  rw [Host.Core.run, h]

/-- A state that a step leaves as it is stays so for every number of steps. -/
theorem run_of_step_self (M : Host.Core) {s : M.State} (h : M.step s = .next s) (k : Nat) :
    M.run k s = .next s := by
  induction k with
  | zero => rfl
  | succ k ih => rw [run_succ_of_next M h, ih]

/-- A step faulted when it ended a running engine in a halted one (R316). -/
theorem halt_of_stepOutcome_faulted {c : Cause} (h : stepOutcome s t = .faulted c) :
    t.halt = .fatal c := by
  unfold stepOutcome at h
  split at h
  · cases h
  · next ht =>
    cases h
    exact ht
  · split at h <;> cases h

/-- The state after a step that ends a batch is left as it is by the next step: a blocked engine waits on the
same word, and a faulted one is halted (R323). -/
theorem step_self_of_endsBatch (h : step s = .next t) (hend : (stepOutcome s t).endsBatch = true) :
    step t = .next t := by
  cases ho : stepOutcome s t with
  | blocked =>
    obtain ⟨hrun, -, hw⟩ := stepOutcome_eq_blocked_iff.1 ho
    cases eq_start_of_blocked h ho
    exact step_of_waitsForKey (s := s.start) hrun hw
  | faulted c =>
    have ht := halt_of_stepOutcome_faulted ho
    exact step_of_halted (by simp [ht])
  | done | idle => simp [ho, StepOutcome.endsBatch] at hend

end Sys2Proof.Machine

namespace Sys2Proof

/-! ### Memory after construction -/

/-- Row r of digit d in the font region (R49). -/
theorem Params.resetByte_of_font (p : Params) (d : Fin 16) (r : Fin 5) :
    p.resetByte (p.fontBase.toNat + 5 * d.val + r.val) = p.fontGlyphs[d.val][r.val] := by
  have hin : p.fontBase.toNat ≤ p.fontBase.toNat + 5 * d.val + r.val ∧
      p.fontBase.toNat + 5 * d.val + r.val < p.fontBase.toNat + 80 := by omega
  have hd : (p.fontBase.toNat + 5 * d.val + r.val - p.fontBase.toNat) / 5 = d.val := by omega
  have hr : (p.fontBase.toNat + 5 * d.val + r.val - p.fontBase.toNat) % 5 = r.val := by omega
  rw [Params.resetByte, dif_pos hin]
  simp only [hd, hr]

/-- Outside the font region a byte is 0 after construction (R41). -/
theorem Params.resetByte_of_not_font (p : Params) {a : Nat}
    (h : a < p.fontBase.toNat ∨ p.fontBase.toNat + 80 ≤ a) : p.resetByte a = 0 :=
  dif_neg (by omega)

end Sys2Proof

namespace Sys2Proof.Proofs

open Sys2Proof.Machine

/-- Settles O1: every field is written out by `construct`, and memory reads as its reset contents. -/
theorem constructionGivesResetValues : Obligations.ConstructionGivesResetValues := by
  intro p
  refine ⟨_, rfl, fun x => ?_, rfl, rfl, rfl, fun k => ?_, rfl, rfl, fun k => ?_, clearDisplay_pixel, rfl,
    rfl, rfl, rfl, rfl, rfl, rfl, rfl, p.resetByte_of_font, fun a => p.resetByte_of_not_font⟩
  · exact Vector.getElem_replicate x.isLt
  · exact Vector.getElem_replicate k.isLt
  · exact Vector.getElem_replicate k.isLt

/-- Settles O11: a halted engine only takes keys. -/
theorem haltedEngineStaysHalted : Obligations.HaltedEngineStaysHalted := by
  intro s hhalt
  refine ⟨step_of_halted hhalt, tick_of_halted hhalt, fun bytes => ?_, fun k b => ?_⟩
  · refine hostLoad_of_not_admitted fun ha => ?_
    obtain ⟨-, -, -, hrun⟩ := State.admitsLoad_iff.1 ha
    exact hhalt hrun
  · exact ⟨_, hostSetKey_of_lt k.isLt, by simp, s.writeKey_sameExcept k b⟩

/-- Settles O47: the timers count down before the batch runs. -/
theorem tickCountsDownThenRunsBatch : Obligations.TickCountsDownThenRunsBatch := by
  intro s hrun
  refine ⟨_, toNat_countDown s.dt, toNat_countDown s.st, rfl, ?_, tick_of_running hrun⟩
  refine (s.start_sameExcept.trans
    ((State.writeDt_sameExcept _ _).trans (State.writeSt_sameExcept _ _))).mono fun p hp => ?_
  rcases hp with h | h | h
  · exact .inr (.inr h)
  · exact .inl h
  · exact .inr (.inl h)

/-- Settles O48: the time gathered is compared with the period. -/
theorem runTicksAtMostOnce : Obligations.RunTicksAtMostOnce := by
  intro elapsed s
  exact ⟨fun h => ⟨_, hostRun_of_lt h, rfl, rfl, s.markRan_writeSinceTick_sameExcept _⟩,
    fun h => ⟨_, rfl, rfl, s.markRan_writeSinceTick_sameExcept _, hostRun_of_le h⟩⟩

/-- Settles O49, by induction on the budget: a step that ends the batch reaches a state that every further
step leaves as it is. -/
theorem batchEqualsFullBudget : Obligations.BatchEqualsFullBudget := by
  intro budget
  induction budget with
  | zero => exact fun _ => rfl
  | succ budget ih =>
    intro s
    rw [batch]
    cases hstep : step s with
    | next t =>
      rw [run_succ_of_next Sys2Proof.core hstep]
      dsimp only
      split
      · next hend => exact (run_of_step_self Sys2Proof.core (step_self_of_endsBatch hstep hend) budget).symm
      · exact ih t
    | fault f => exact (run_succ_of_fault Sys2Proof.core hstep budget).symm
    | refused r => exact (run_succ_of_refused Sys2Proof.core hstep budget).symm

/-- Settles O50: an admitted Load writes the bytes at 0x200 or raises its error, and any other is refused. -/
theorem loadCopiesTheProgram : Obligations.LoadCopiesTheProgram := by
  rintro bytes s ⟨hm, -⟩
  refine ⟨fun hstarted hran hloaded hrun => ?_, fun h => hostLoad_of_not_admitted fun ha => ?_⟩
  · have ha := State.admitsLoad_iff.2 ⟨hstarted, hran, hloaded, hrun⟩
    refine ⟨fun hlen => ⟨_, hostLoad_of_le ha hlen, rfl, fun k hk => ?_,
      s.markLoaded_sameExcept.trans (s.markLoaded.writeBytes_sameExcept hm _ _)⟩,
      fun hlen => ⟨_, hostLoad_of_gt ha hlen, rfl, s.halt_sameExcept _⟩⟩
    have hin : Config.progStart ≤ 0x200 + k ∧ 0x200 + k - Config.progStart < bytes.length := by
      simpa [Config.progStart] using hk
    rw [State.byteAt_writeBytes (s := s.markLoaded) hm, dif_pos hin]
    simp [Config.progStart]
  · obtain ⟨hstarted, hran, hloaded, hrun⟩ := State.admitsLoad_iff.1 ha
    simp [hstarted, hran, hloaded, hrun] at h

/-- Settles O51: a key index in range is written, any other is refused. -/
theorem setKeyWritesOneKey : Obligations.SetKeyWritesOneKey := by
  intro index pressed s
  refine ⟨?_, hostSetKey_of_ge⟩
  rintro k rfl
  exact ⟨_, hostSetKey_of_lt k.isLt, by simp, s.writeKey_sameExcept k pressed⟩

end Sys2Proof.Proofs
end

section
/-! PROOFS. Single instructions and pairs of them: the statements about arithmetic, control transfer, memory
transfer, sprites and keys that the sections above do not settle. -/

namespace Sys2Proof.Machine

variable {s t u : State} {x y z : RegId} {n : BitVec 4}

/-! ### Operands as numbers -/

/-- A byte keeps its value when it is extended to a word (R86). -/
@[simp] theorem toNat_extendByte (b : Byte) : (extendByte b).toNat = b.toNat :=
  BitVec.toNat_setWidth_of_le (by decide)

/-- The low nibble of a byte is its remainder by 16 (R183, D14). -/
theorem toNat_and_0F (b : Byte) : (b &&& 0x0F#8).toNat = b.toNat % 16 := by
  rw [BitVec.toNat_and]
  exact Nat.and_two_pow_sub_one_eq_mod b.toNat 4

/-- The address of a glyph never wraps, because FONT_BASE has 12 bits (R183). -/
theorem State.toNat_glyphAddress (s : State) (b : Byte) :
    (s.glyphAddress b).toNat = s.params.fontBase.toNat + 5 * (b.toNat % 16) := by
  have hbase := s.params.fontBase.isLt
  simp only [State.glyphAddress, BitVec.toNat_add, BitVec.toNat_mul, toNat_extendAddr, toNat_extendByte,
    toNat_and_0F, BitVec.toNat_ofNat, BitVec.ofNat_eq_ofNat]
  omega

/-! ### Bytes in memory -/

/-- The byte at an address is read from memory and the reset contents only (R41). -/
theorem State.byteAt_congr (hmem : u.mem = t.mem) (hparams : u.params = t.params) (a : Nat) :
    u.byteAt a = t.byteAt a := by
  rw [State.byteAt, State.byteAt, hmem, hparams]

/-- The k-th digit stored by FX33 at its place (R184). -/
theorem State.byteAt_writeBytes_bcdDigits (hm : s.mem.Sorted) (a : Nat) (b : Byte) (k : Fin 3) :
    (s.writeBytes a (bcdDigits b)).byteAt (a + k.val) = (bcdDigits b)[k.val]'k.isLt := by
  have hin : a ≤ a + k.val ∧ a + k.val - a < (bcdDigits b).length :=
    ⟨Nat.le_add_right a k.val, (Nat.add_sub_cancel_left ..).symm ▸ k.isLt⟩
  rw [State.byteAt_writeBytes hm, dif_pos hin]
  simp only [Nat.add_sub_cancel_left]
  rfl

/-- The byte a later state with the stored memory reads where FX55 stored V[z] (R185, D32). -/
theorem State.byteAt_of_stored (hm : s.mem.Sorted) (hz : z.toNat ≤ x.toNat)
    (hmem : u.mem = (s.writeBytes s.i.toNat (s.registerBlock x)).mem) (hparams : u.params = s.params) :
    u.byteAt (s.i.toNat + z.toNat) = s.readV z :=
  (State.byteAt_congr hmem hparams _).trans (State.byteAt_writeBytes_registerBlock hm _ hz)

/-! ### Sprites -/

/-- What a draw of the pixels `hits` does: they are inverted, VF is the collision, and only PC, VF and pixels
change (R211, R215). -/
structure Drew (hits : Fin 64 → Fin 32 → Prop) (s t : State) : Prop where
  inverted : ∀ px py, hits px py → t.pix.pixel px py = !s.pix.pixel px py
  kept : ∀ px py, ¬ hits px py → t.pix.pixel px py = s.pix.pixel px py
  collided : (∃ px py, hits px py ∧ s.pix.pixel px py = true) → t.readV VF = 1
  clear : (¬ ∃ px py, hits px py ∧ s.pix.pixel px py = true) → t.readV VF = 0
  advances : Advances s t
  frame : SameExcept (fun p => p = .pc ∨ p = .reg VF ∨ ∃ px py, p = .pixel px py) s t

/-- Pixels drawn and their collision in VF are a draw (R211). -/
theorem Drawn.drew {hits : Fin 64 → Fin 32 → Prop} {d : Canvas}
    (h : Drawn hits { pix := s.pix, col := false } d) :
    Drew hits s ((s.writePix d.pix).writeV VF (flagByte d.col)).advance where
  inverted := h.inverted
  kept := h.kept
  collided hc := by
    have hcol : d.col = true := h.flag.2 (.inr hc)
    simp [hcol, flagByte]
  clear hc := by
    have hcol : d.col = false := Bool.eq_false_iff.2 fun hd => hc ((h.flag.1 hd).resolve_left nofun)
    simp [hcol, flagByte]
  advances := State.advance_advances _
  frame := ((s.writePix_sameExcept d.pix).trans (State.writeV_sameExcept _ VF _)).advance.mono fun _ =>
    Or.imp_right Or.symm

/-- A sprite of no rows covers nothing (R216). -/
theorem not_spriteCovers_zero (px : Fin 64) (py : Fin 32) : ¬ spriteCovers s x y 0 px py := by
  rintro ⟨r, c, hr, -⟩
  exact Nat.not_lt_zero r hr

/-- DXYN with its bytes in range draws the pixels its sprite covers, none of them when n = 0 (R211, R216). -/
theorem exec_drwVxVyN_drew (h : n ≠ 0 → s.i.toNat + n.toNat ≤ 0x1000) :
    ∃ t, exec (.drwVxVyN x y n) s = .next t ∧ Drew (spriteCovers s x y n) s t := by
  by_cases hn : n = 0
  · subst hn
    exact ⟨_, execDrwVxVyN_zero, Drawn.drew (.refl not_spriteCovers_zero _)⟩
  · exact ⟨_, execDrwVxVyN_of_le hn (h hn), (s.drawSprite_drawn x y n).drew⟩

/-- After a draw the same sprite covers the same pixels, because it is read from parts the draw keeps when
VF is none of its coordinates (R217). -/
theorem Drew.spriteCovers_iff {hits : Fin 64 → Fin 32 → Prop} (h : Drew hits s t) (hx : x ≠ VF)
    (hy : y ≠ VF) (px : Fin 64) (py : Fin 32) :
    spriteCovers t x y n px py ↔ spriteCovers s x y n px py := by
  have hVx : t.readV x = s.readV x := h.frame (.reg x) (by simpa using hx)
  have hVy : t.readV y = s.readV y := h.frame (.reg y) (by simpa using hy)
  have hi : t.i = s.i := h.frame .i (by simp)
  have hparams : t.params = s.params := h.frame .params (by simp)
  have hbyte : ∀ a, t.byteAt a = s.byteAt a := fun a => h.frame (.memByte a) (by simp)
  simp only [spriteCovers, hVx, hVy, hi, hparams, hbyte]

/-- VF is 1 after a draw exactly when a drawn pixel was set (R215). -/
theorem Drew.flag_eq_one_iff {hits : Fin 64 → Fin 32 → Prop} (h : Drew hits s t) :
    t.readV VF = 1 ↔ ∃ px py, hits px py ∧ s.pix.pixel px py = true := by
  refine ⟨fun h1 => ?_, h.collided⟩
  by_contra hc
  rw [h.clear hc] at h1
  cases h1

end Sys2Proof.Machine

namespace Sys2Proof.Proofs

open Sys2Proof.Machine Sys2Proof.Claims

/-! ### Register and ALU instructions -/

/-- Settles O17: the reverse difference and then no-borrow, read as numbers. -/
theorem subnSetsNoBorrow : Obligations.SubnSetsNoBorrow := by
  intro x y s
  have h : WritesRegisterAndFlag (.subnVxVy x y) x (s.readV y - s.readV x).toNat
    (noBorrowFlag (s.readV y) (s.readV x)).toNat s := writesRegisterAndFlag_of_exec rfl
  rwa [toNat_byte_sub, toNat_noBorrowFlag] at h

/-- Settles O19: the drawn byte is masked into the register and the draw is counted. -/
theorem randomDrawsAndMasks : Obligations.RandomDrawsAndMasks := by
  intro x nn s
  refine ⟨_, rfl, ?_, rfl, State.advance_advances _,
    ((s.writeV_sameExcept x _).trans (State.countDraw_sameExcept _)).advance⟩
  rw [State.advance_readV, State.countDraw_readV, State.readV_writeV, if_pos rfl]
  rfl

/-! ### Control transfer -/

/-- Settles O23: a 12-bit address and a byte do not wrap at 16 bits. -/
theorem relativeJumpAddsV0 : Obligations.RelativeJumpAddsV0 := by
  intro nnn s
  refine ⟨_, rfl, ?_, s.writePc_sameExcept _⟩
  have hnnn := nnn.isLt
  have hV0 := (s.readV 0).isLt
  rw [State.writePc_pc, BitVec.toNat_add, toNat_extendAddr, toNat_extendByte]
  omega

/-- Settles O24: the return address is written at SP before SP and PC are. -/
theorem callPushesReturnAddress : Obligations.CallPushesReturnAddress := by
  intro nnn k s hk
  have hlt : s.sp.toNat < 16 := hk ▸ k.isLt
  have hslot : (⟨s.sp.toNat, hlt⟩ : Fin 16) = k := Fin.ext hk
  refine ⟨_, execCallNnn_of_lt hlt, ?_, ?_, toNat_extendAddr nnn, ?_⟩
  · rw [hslot]
    simp [BitVec.toNat_add]
  · rw [State.writePc_sp, State.writeSp_sp]
    bv_omega
  · rw [hslot]
    refine (((s.writeStack_sameExcept k _).trans (State.writeSp_sameExcept _ _)).trans
      (State.writePc_sameExcept _ _)).mono fun _ => ?_
    exact fun h => h.symm.imp_right Or.symm

/-- Settles O26: both errors are raised before anything is written. -/
theorem stackOverflowAndUnderflowHalt : Obligations.StackOverflowAndUnderflowHalt :=
  fun _ _ => ⟨fun h => haltsWith_of_exec (execCallNnn_of_full h),
    fun h => haltsWith_of_exec (execRet_of_empty h)⟩

/-- Settles O27: no stack entry exists above 16. -/
theorem illegalStackPointerStops : Obligations.IllegalStackPointerStops :=
  fun _ h => ⟨fun _ => execCallNnn_of_gt h, execRet_of_gt h⟩

/-- Settles O28: RET pops the entry that CALL pushed and gives SP back its value. -/
theorem callThenReturnResumes : Obligations.CallThenReturnResumes := by
  intro nnn s h
  obtain ⟨t, ht, hpush, hsp, -, hframe⟩ := callPushesReturnAddress nnn ⟨s.sp.toNat, h⟩ s rfl
  obtain ⟨u, hu, hsp', hpc, hframe'⟩ := (returnPopsAddress t).1 ⟨s.sp.toNat, h⟩ hsp
  refine ⟨t, u, ht, hu, ?_, fun p hp => ?_⟩
  · rw [Advances, hpc, hpush]
  · by_cases hpsp : p = .sp
    · subst hpsp
      exact BitVec.eq_of_toNat_eq hsp'
    · refine (hframe.trans hframe') p ?_
      rintro ((rfl | rfl | rfl) | rfl | rfl)
      · exact hp (.inl rfl)
      · exact hpsp rfl
      · exact hp (.inr ⟨_, rfl, rfl⟩)
      · exact hp (.inl rfl)
      · exact hpsp rfl

/-! ### Address register and memory transfer -/

/-- Settles O30: a sum of words is the sum modulo 2^16. -/
theorem addToAddressRegister : Obligations.AddToAddressRegister := by
  intro x s
  refine ⟨_, rfl, ?_, State.advance_advances _, (s.writeI_sameExcept _).advance⟩
  rw [State.advance_i, State.writeI_i, BitVec.toNat_add, toNat_extendByte]

/-- Settles O31: I is written with the glyph address, which does not wrap. -/
theorem glyphAddressOfDigit : Obligations.GlyphAddressOfDigit :=
  fun x s => ⟨_, rfl, s.toNat_glyphAddress (s.readV x), State.advance_advances _,
    (s.writeI_sameExcept _).advance⟩

/-- Settles O32: the three digits are below 256 and stand in a row at I. -/
theorem bcdStoresThreeDigits : Obligations.BcdStoresThreeDigits := by
  rintro x s ⟨hm, -⟩ hi
  have hV := (s.readV x).isLt
  have hdigit := State.byteAt_writeBytes_bcdDigits hm s.i.toNat (s.readV x)
  refine ⟨_, execLdBVx_of_le hi, ?_, ?_, ?_, State.advance_advances _, ?_⟩
  · refine (congrArg BitVec.toNat (hdigit 0)).trans ?_
    exact Nat.mod_eq_of_lt (by omega)
  · refine (congrArg BitVec.toNat (hdigit 1)).trans ?_
    exact Nat.mod_eq_of_lt (by omega)
  · refine (congrArg BitVec.toNat (hdigit 2)).trans ?_
    exact Nat.mod_eq_of_lt (by omega)
  · refine (s.writeBytes_sameExcept hm _ _).advance.mono ?_
    rintro p (hp | ⟨a, rfl, hle, hlt⟩)
    · exact .inl hp
    · exact .inr ⟨a, rfl, hle, Nat.le_of_lt_succ hlt⟩

/-- Settles O35: the range is checked before any byte moves. -/
theorem accessPastTheEndHalts : Obligations.AccessPastTheEndHalts :=
  fun _ _ _ _ => ⟨fun h => haltsWith_of_exec (execLdBVx_of_gt h),
    fun h => haltsWith_of_exec (execLdMemVx_of_gt h), fun h => haltsWith_of_exec (execLdVxMem_of_gt h),
    fun hn h => haltsWith_of_exec (execDrwVxVyN_of_gt hn h)⟩

/-- Settles O36: FX65 reads the bytes at the addresses FX55 stored them at. -/
theorem storeThenLoadRestoresRegisters : Obligations.StoreThenLoadRestoresRegisters := by
  rintro x s ⟨hm, -⟩ hi
  refine ⟨_, execLdMemVx_of_le hi, fun u hmem hparams hui => ?_⟩
  rw [← hui] at hi
  refine ⟨_, execLdVxMem_of_le hi, fun z hz => ?_⟩
  refine (u.readV_loadBlock x z).trans ?_
  rw [if_pos hz, hui]
  exact State.byteAt_of_stored hm hz hmem hparams

/-- Settles O37: the two bytes fetched at PC are the two registers stored there. -/
theorem storedBytesAreFetched : Obligations.StoredBytesAreFetched := by
  rintro x z s ⟨hm, -⟩ hi hz
  refine ⟨_, execLdMemVx_of_le hi, fun u i hmem hparams hrun hpc hw => ?_⟩
  have hz1 : (z + 1).toNat = z.toNat + 1 := by bv_omega
  have hlo : u.byteAt (s.i.toNat + z.toNat) = s.readV z :=
    State.byteAt_of_stored hm (Nat.le_of_succ_le hz) hmem hparams
  have hhi : u.byteAt (s.i.toNat + (z + 1).toNat) = s.readV (z + 1) :=
    State.byteAt_of_stored hm (hz1 ▸ hz) hmem hparams
  refine step_of_instr hrun (by omega) ?_
  rw [State.fetchWord, hpc, Nat.add_assoc, ← hz1, hlo, hhi]
  exact hw

/-! ### Display -/

/-- Settles O39: the loops draw the pixels the sprite covers. -/
theorem drawInvertsCoveredPixels : Obligations.DrawInvertsCoveredPixels := by
  intro x y n s _ h
  obtain ⟨t, ht, hd⟩ := exec_drwVxVyN_drew (x := x) (y := y) fun _ => h
  exact ⟨t, ht, hd.inverted, hd.kept, hd.collided, hd.clear, hd.advances, hd.frame⟩

/-- Settles O40: with no rows only VF and PC are written. -/
theorem drawZeroRowsClearsFlag : Obligations.DrawZeroRowsClearsFlag :=
  fun _ _ s => ⟨_, execDrwVxVyN_zero, by simp, State.advance_advances _,
    (s.writeV_sameExcept VF 0).advance⟩

/-- Settles O41: the second draw inverts the pixels the first one inverted, so it collides exactly where the
first one set a pixel. -/
theorem drawTwiceRestoresPixels : Obligations.DrawTwiceRestoresPixels := by
  intro x y n s hx hy h
  obtain ⟨t, ht, hst⟩ := exec_drwVxVyN_drew (x := x) (y := y) h
  have hi : t.i = s.i := hst.frame .i (by simp)
  obtain ⟨u, hu, htu⟩ := exec_drwVxVyN_drew (s := t) (x := x) (y := y) (hi ▸ h)
  have hcovers := fun px py => hst.spriteCovers_iff (n := n) hx hy px py
  have hcollides : ∀ px py, spriteCovers s x y n px py → s.pix.pixel px py = false →
      u.readV VF = 1 := fun px py hc hs =>
    htu.collided ⟨px, py, (hcovers px py).2 hc, by rw [hst.inverted px py hc, hs]; rfl⟩
  refine ⟨t, u, ht, hu, fun px py => ?_, ?_, ?_, fun hnone => htu.clear ?_, ?_⟩
  · by_cases hc : spriteCovers s x y n px py
    · rw [htu.inverted px py ((hcovers px py).2 hc), hst.inverted px py hc, Bool.not_not]
    · rw [htu.kept px py (mt (hcovers px py).1 hc), hst.kept px py hc]
  · rw [htu.flag_eq_one_iff]
    simp only [hcovers]
  · rintro ⟨px, py, hc, hs⟩
    exact hcollides px py hc hs
  · rintro ⟨px, py, hc, hpix⟩
    rw [hcovers] at hc
    rw [hst.inverted px py hc, Bool.not_eq_true'] at hpix
    exact hnone ⟨px, py, hc, hpix⟩
  · rintro hVF ⟨px, py, hc⟩
    refine hcollides px py hc (Bool.eq_false_iff.2 fun hs => ?_)
    rw [hst.collided ⟨px, py, hc, hs⟩] at hVF
    cases hVF

/-- Refutes O42: with every pixel set, one row of the glyph of digit 0 is erased by the first draw, and the
second draw sets it without a collision. -/
theorem not_secondDrawAlwaysCollides : ¬ Obligations.SecondDrawAlwaysCollides := by
  intro h
  have hVF := h 0 1 1
    { State.construct (.withDefaultFont .modern 1) with pix := .replicate 32 (.replicate 64 true) } _ _
    (by decide) (by decide) rfl rfl rfl ⟨0, 0, 0, 0, by decide⟩
  revert hVF
  decide

/-! ### Keys -/

/-- Settles O43: the two skips test the key that V[x] names, for pressed and for released. -/
theorem keySkipsTestOneKey : Obligations.KeySkipsTestOneKey := by
  intro x s
  refine ⟨fun k hk => ?_, fun h => ⟨haltsWith_of_exec (State.skipOnKey_of_gt h),
    haltsWith_of_exec (State.skipOnKey_of_gt h)⟩⟩
  have hlt : (s.readV x).toNat < 16 := hk ▸ k.isLt
  have hkey : (⟨(s.readV x).toNat, hlt⟩ : Fin 16) = k := Fin.ext hk
  exact ⟨skipsWhen_of_exec (by rw [hkey, beq_iff_eq]) (State.skipOnKey_of_lt hlt),
    skipsWhen_of_exec (by rw [hkey, beq_iff_eq]) (State.skipOnKey_of_lt hlt)⟩

/-- Settles O45: the lowest pressed key is recorded, and with none pressed nothing changes. -/
theorem keyWaitRecordsLowestKey : Obligations.KeyWaitRecordsLowestKey := by
  intro x s
  refine ⟨fun k hk hlow => writesRegister_of_exec (execLdVxK_of_some ?_),
    fun h => execLdVxK_of_none (s.lowestKey_eq_none.2 h)⟩
  exact s.lowestKey_eq_some.2 ⟨k.isLt, hk, fun j hj => hlow j hj⟩

end Sys2Proof.Proofs
end
